-- ==== Sys2Proof/Word.lean ====
section
/-! DEFINITION. The plain types of the engine: the 16-bit element, the 256-bit bus, four things in a row, the
4×4 matrix of elements (`00_scope.md` R4, R6; `30_encoding.md` R55). -/

namespace Sys2Proof

/-- An element: the 16-bit two's-complement pattern of an `int16` (R55). Its value, the spec's `sext_16`, is
`BitVec.toInt`. -/
abbrev Word := BitVec 16

/-- What a matrix port carries: 256 bits (`20_memory.md` R41, R42). -/
abbrev Bus := BitVec 256

/-- A 4-vector `(x0, x1, x2, x3)` (R6). -/
structure Vec4 (α : Type) where
  x0 : α
  x1 : α
  x2 : α
  x3 : α
deriving DecidableEq, Repr, Inhabited

/-- The document's Matrix: "a fixed 4×4 grid of signed 16-bit integers", held as its four rows, row 0 first (R6). -/
abbrev Mat := Vec4 (Vec4 Word)

end Sys2Proof
end

