-- ==== Sys2Proof/Config.lean ====
section
/-! DEFINITION. What is fixed for the machine: the constants of the design (`00_scope.md` R4, R5), and the free
values, constants with no body, for what the spec leaves unspecified (`93_implementation_defined.md` V1, V2). -/

namespace Sys2Proof

/-- The scale divided out in stage 4 (R4). -/
def Config.divisor : Int := 16

/-- The inner divisor of stage 4, half the scale (R4). -/
def Config.half : Int := 8

/-- The sequency-ordered Hadamard matrix A, row `i`, column `j` (R5). The hardware holds it nowhere: it is the wiring
of the butterfly, and only claims name it. -/
def Config.hadamard : Fin 4 → Fin 4 → Int
  | 0, _ => 1
  | 1, 0 => 1
  | 1, 1 => 1
  | 1, 2 => -1
  | 1, 3 => -1
  | 2, 0 => 1
  | 2, 1 => -1
  | 2, 2 => -1
  | 2, 3 => 1
  | 3, 0 => 1
  | 3, 1 => -1
  | 3, 2 => 1
  | 3, 3 => -1

/-- FREE VALUE: what a matrix register holds where the spec leaves it unspecified (after reset, R31). No body: nothing
is known of it but that equal indexes give equal values. DESIGN CHOICE, log entry 3. -/
opaque Config.freeMatrix : Nat → Mat

/-- FREE VALUE: what a bus carries where the spec leaves it unspecified (`c_out` while `DONE = 0`, R73; the operand
buses before the host drives them, R41). No body: nothing is known of it but that equal indexes give equal values.
DESIGN CHOICE, log entries 4 and 6. -/
opaque Config.freeBus : Nat → Bus

end Sys2Proof
end

