-- ==== Sys2Proof/Machine/Operands.lean ====
section
/-! DEFINITION. Elements, vectors and matrices as operands: indexing (`00_scope.md` R6), the 16-bit wrap (R7), the
number format (`30_encoding.md` R55) and the packing of a matrix on a bus (`20_memory.md` R43). -/

namespace Sys2Proof

/-- Element `k` of a 4-vector (R6). -/
def Vec4.get {α : Type} (x : Vec4 α) : Fin 4 → α
  | 0 => x.x0
  | 1 => x.x1
  | 2 => x.x2
  | 3 => x.x3

/-- The 4-vector whose element `k` is `f k`. -/
def Vec4.ofFn {α : Type} (f : Fin 4 → α) : Vec4 α := ⟨f 0, f 1, f 2, f 3⟩

/-- A function applied to each of the four. -/
def Vec4.map {α β : Type} (f : α → β) (x : Vec4 α) : Vec4 β := ⟨f x.x0, f x.x1, f x.x2, f x.x3⟩

/-- `M[i][j]`: row `i`, column `j` (R6). -/
def Mat.elem (M : Mat) (i j : Fin 4) : Word := (M.get i).get j

/-- The matrix whose element `(i, j)` is `f i j`. -/
def Mat.ofFn (f : Fin 4 → Fin 4 → Word) : Mat := Vec4.ofFn fun i => Vec4.ofFn (f i)

/-- Columns for rows, so that the column pass applies the butterfly of the row pass. -/
def Mat.transpose (M : Mat) : Mat := Mat.ofFn fun i j => M.elem j i

/-- `enc16`: the 16-bit pattern of an integer, `v mod 65536` (R55). -/
def enc16 (v : Int) : Word := BitVec.ofInt 16 v

/-- `wrap16`: reduction modulo 2^16 into the signed range (R7). -/
def wrap16 (v : Int) : Word := enc16 ((v + 32768) % 65536 - 32768)

/-- The field of element `(i, j)` on a bus: bits `16k+15 : 16k` with `k = 4i + j` (R43). -/
def Bus.elem (b : Bus) (i j : Fin 4) : Word := b.extractLsb' (16 * (4 * i.val + j.val)) 16

/-- Reading a matrix off a bus (R43). -/
def unpack (b : Bus) : Mat := Mat.ofFn (Bus.elem b)

/-- A row on 64 bits, element 0 in the lowest field (R43). -/
def packRow (x : Vec4 Word) : BitVec 64 := x.x3 ++ x.x2 ++ x.x1 ++ x.x0

/-- Writing a matrix on a bus, row 0 in the lowest fields (R43). -/
def pack (M : Mat) : Bus := packRow M.x3 ++ packRow M.x2 ++ packRow M.x1 ++ packRow M.x0

end Sys2Proof
end

