-- ==== Sys2Proof/Machine/Arith.lean ====
section
/-! DEFINITION. The arithmetic: truncating division (`00_scope.md` R8), the butterfly `BFLY4` (`42_butterfly.md` R90),
the rounding divide `RDIV16` (`43_rounding_divide.md` R100), the four matrix functions and `transform`
(`40_transform.md` R70). Results are computed exactly on the integers and narrowed by name. -/

namespace Sys2Proof

/-- `tdiv(a, b) = sgn(a)·sgn(b)·floor(|a| / |b|)`: the fraction is discarded toward zero (R8). -/
def tdiv (a b : Int) : Int := a.sign * b.sign * ((a.natAbs / b.natAbs : Nat) : Int)

/-- `trem(a, b) = a − b·tdiv(a, b)`: the remainder has the sign of the dividend (R8). -/
def trem (a b : Int) : Int := a - b * tdiv a b

/-- An adder of stages 1 to 3: the exact sum, wrapped (R90, decision D5). -/
def add16 (a b : Word) : Word := wrap16 (a.toInt + b.toInt)

/-- A subtractor of stages 1 to 3: the exact difference, wrapped (R85, R90, decision D5). -/
def sub16 (a b : Word) : Word := wrap16 (a.toInt - b.toInt)

/-- `BFLY4` (R90). Note the last two: `y2` is the difference `t2 − t3` and `y3` the sum `t2 + t3`. -/
def bfly4 (x : Vec4 Word) : Vec4 Word :=
  let t0 := add16 x.x0 x.x1
  let t1 := add16 x.x2 x.x3
  let t2 := sub16 x.x0 x.x1
  let t3 := sub16 x.x2 x.x3
  { x0 := add16 t0 t1, x1 := sub16 t0 t1, x2 := sub16 t2 t3, x3 := add16 t2 t3 }

/-- `RDIV16` (R100): `q + tdiv(r, 8)` with `q = tdiv(v, 16)` and `r = v − 16·q`, exact integers throughout; the result
lies in −2048..2048 (R104), so `enc16` only writes it as a pattern. -/
def rdiv16 (v : Word) : Word :=
  let q := tdiv v.toInt Config.divisor
  let r := v.toInt - Config.divisor * q
  let h := tdiv r Config.half
  enc16 (q + h)

/-- `DIFFM` (R85). -/
def diffM (R P : Mat) : Mat := Mat.ofFn fun i j => sub16 (R.elem i j) (P.elem i j)

/-- `ROWPASSM` (R92): the butterfly of each row. -/
def rowpassM (M : Mat) : Mat := Vec4.map bfly4 M

/-- `COLPASSM` (R93): the butterfly of each column. -/
def colpassM (M : Mat) : Mat := Mat.transpose (Vec4.map bfly4 (Mat.transpose M))

/-- `RDIVM` (R101). -/
def rdivM (M : Mat) : Mat := Mat.ofFn fun i j => rdiv16 (M.elem i j)

/-- The stage-3 result F of a call: what `W` holds before stage 4 (R22). -/
def stage3 (R P : Mat) : Mat := colpassM (rowpassM (diffM R P))

/-- The function one call computes (R70). -/
def transform (R P : Mat) : Mat := rdivM (stage3 R P)

end Sys2Proof
end

