-- ==== Sys2Proof/Machine/State.lean ====
section
/-! DEFINITION. The state of one engine instance with the levels on its input pins (`10_state.md` R20 to R25, R31;
`20_memory.md` R41, R42), the reasons a step could stop, and the state after reset. The engine has no memory (R40). -/

namespace Sys2Proof.Machine

/-- The engine raises no exception (`60_exceptions.md` R125: "the set of exception causes is empty"), and overflow is
none (R126), so there is no fault. -/
inductive Fault where
deriving DecidableEq, Repr

/-- Why an instruction has no meaning. -/
inductive Refusal where
  /-- Raised by an arm of `exec` for an instruction that has no meaning yet, by its mnemonic; no arm does. Safe. -/
  | notModelled (mnemonic : String)
deriving DecidableEq, Repr

/-- The levels the host drives on the input pins (`20_memory.md` R42). `clk` is left out: no rule depends on it
(R144, log entry 10). -/
structure Pins where
  /-- `rst`: the reset request (R140). -/
  rst : Bool
  /-- `start`: the CMD word (R56). -/
  start : Bool
  /-- `r_in`: operand R, sampled at an accepted START (R41). -/
  rIn : Bus
  /-- `p_in`: operand P, sampled at an accepted START (R41). -/
  pIn : Bus
deriving DecidableEq, Repr

/-- The complete state of one engine instance (R20), the levels on its input pins, and the model's own counter of free
values drawn. -/
structure State where
  /-- `RQ`: operand R of the call in flight (R21). -/
  rq : Mat
  /-- `PQ`: operand P of the call in flight (R21). -/
  pq : Mat
  /-- `W`: D after stage 1, E after stage 2, F after stage 3 (R22). -/
  w : Mat
  /-- `C`: the result of the last completed call (R23). -/
  c : Mat
  /-- `STG`: the index of the next stage (R24). -/
  stg : BitVec 2
  /-- `BUSY`: a call is in flight (R25). -/
  busy : Bool
  /-- `DONE`: `C` holds a valid result (R25). -/
  done : Bool
  /-- The input pins. -/
  pins : Pins
  /-- The model's own: how many free values have been drawn. Each state counts for itself, so two states with equal
  counts draw equal free values. DESIGN CHOICE, log entry 5. -/
  draws : Nat
deriving DecidableEq, Repr

/-- The machine right after reset (R31): `BUSY`, `DONE` and `STG` are 0; the matrix registers are unspecified, each a
free value of its own (DESIGN CHOICE, log entry 3); `rst` is released and no command is given, and the operand buses
"may hold anything" (DESIGN CHOICE, log entry 4). -/
def State.reset : State where
  rq := Config.freeMatrix 0
  pq := Config.freeMatrix 1
  w := Config.freeMatrix 2
  c := Config.freeMatrix 3
  stg := 0
  busy := false
  done := false
  pins := { rst := false, start := false, rIn := Config.freeBus 0, pIn := Config.freeBus 1 }
  draws := 4

end Sys2Proof.Machine
end

