-- ==== Sys2Proof/Machine/Flags.lean ====
section
/-! DEFINITION. The sequencer and the flags: `STG`, `BUSY`, `DONE` (`10_state.md` R24, R25). There are no condition
codes (R26): no arithmetic result sets anything. -/

namespace Sys2Proof.Machine

/-- What an accepted START does to the sequencer and the flags (`40_transform.md` R71). -/
def State.beginCall (s : State) : State := { s with stg := 0, busy := true, done := false }

/-- What the end of stage 4 does to the flags (`43_rounding_divide.md` R101). -/
def State.endCall (s : State) : State := { s with busy := false, done := true }

/-- `STG <- (STG + 1) mod 4` (`40_transform.md` R72). -/
def State.advanceStg (s : State) : State := { s with stg := s.stg + 1 }

end Sys2Proof.Machine
end

