-- ==== Sys2Proof/Machine/Ops.lean ====
section
/-! DEFINITION. The named operations on the state: writing the matrix registers, accepting START, the stage step,
reset. The engine has no exception to take and none to return from (`60_exceptions.md` R125, R129): reset is the only
event that takes control from a call (R127). -/

namespace Sys2Proof.Machine

/-- Both operand registers at once (`10_state.md` R21). -/
def State.loadOperands (s : State) (R P : Mat) : State := { s with rq := R, pq := P }

/-- All of the working matrix at once (R22). -/
def State.writeW (s : State) (M : Mat) : State := { s with w := M }

/-- All of the result register at once (R23). -/
def State.writeC (s : State) (M : Mat) : State := { s with c := M }

/-- The host puts levels on the input pins (`20_memory.md` R41, R42). -/
def State.drive (s : State) (p : Pins) : State := { s with pins := p }

/-- One free value has been drawn (the model's own counter, log entry 5). -/
def State.draw (s : State) : State := { s with draws := s.draws + 1 }

/-- An accepted START (`40_transform.md` R71): both buses are sampled whole and the call begins. -/
def State.acceptStart (s : State) : State :=
  (s.loadOperands (unpack s.pins.rIn) (unpack s.pins.pIn)).beginCall

/-- The stage step (R72) performing the operation `op` whose code is `code`: it happens when a call is in flight and
the sequencer names this stage, and then the sequencer advances; otherwise the operation is not performed and nothing
happens ("no stage can be skipped or repeated"). DEDUCED, log entry 2. -/
def State.stageStep (s : State) (code : BitVec 2) (op : State → State) : State :=
  if s.busy = true ∧ s.stg = code then (op s).advanceStg else s

/-- Reset takes effect (`70_reset_and_hazards.md` R140): `BUSY`, `DONE`, `STG` are 0 and the matrix registers are
unspecified, a fresh free value each (DESIGN CHOICE, log entry 3). The pins are the host's and stay. -/
def State.applyReset (s : State) : State where
  rq := Config.freeMatrix s.draws
  pq := Config.freeMatrix (s.draws + 1)
  w := Config.freeMatrix (s.draws + 2)
  c := Config.freeMatrix (s.draws + 3)
  stg := 0
  busy := false
  done := false
  pins := s.pins
  draws := s.draws + 4

end Sys2Proof.Machine
end

