-- ==== Sys2Proof/Machine/Butterfly.lean ====
section
/-! DEFINITION. The meanings of ROWPASS and COLPASS, stages 2 and 3 (`42_butterfly.md` R92, R93). All reads see `W` as
it was before the step (R95). -/

namespace Sys2Proof.Machine

/-- ROWPASS: `W <- ROWPASSM(W)`; the stage step goes on to stage 3 (R92, R72). -/
def execRowpass (s : State) : Host.Outcome State Fault Refusal :=
  .next (s.stageStep 1 fun u => u.writeW (rowpassM u.w))

/-- COLPASS: `W <- COLPASSM(W)`; the stage step goes on to stage 4 (R93, R72). -/
def execColpass (s : State) : Host.Outcome State Fault Refusal :=
  .next (s.stageStep 2 fun u => u.writeW (colpassM u.w))

end Sys2Proof.Machine
end

