-- ==== Sys2Proof/Machine/Call.lean ====
section
/-! DEFINITION. The meaning of START (`40_transform.md` R71). -/

namespace Sys2Proof.Machine

/-- START: accepted when no call is in flight; presented while one is, "nothing happens, no state changes" (R71). -/
def execStart (s : State) : Host.Outcome State Fault Refusal :=
  .next (if s.busy = true then s else s.acceptStart)

end Sys2Proof.Machine
end

