-- ==== Sys2Proof/Machine/Difference.lean ====
section
/-! DEFINITION. The meaning of DIFF, stage 1 (`41_difference.md` R85). -/

namespace Sys2Proof.Machine

/-- DIFF: `W <- DIFFM(RQ, PQ)`; the stage step goes on to stage 2 (R85, R72). -/
def execDiff (s : State) : Host.Outcome State Fault Refusal :=
  .next (s.stageStep 0 fun u => u.writeW (diffM u.rq u.pq))

end Sys2Proof.Machine
end

