-- ==== Sys2Proof/Machine/RoundingDivide.lean ====
section
/-! DEFINITION. The meaning of RDIV, stage 4 (`43_rounding_divide.md` R101). -/

namespace Sys2Proof.Machine

/-- RDIV: `C <- RDIVM(W)`, `BUSY <- 0`, `DONE <- 1`, and the stage step returns `STG` to 0, all at once (R101, R72). -/
def execRdiv (s : State) : Host.Outcome State Fault Refusal :=
  .next (s.stageStep 3 fun u => (u.writeC (rdivM u.w)).endCall)

end Sys2Proof.Machine
end

