-- ==== Sys2Proof/Syntax.lean ====
section
/-! DEFINITION. The operations: one constructor for each row of spec/opcode_table.json (`30_encoding.md` R57). None
has an operand field (R58): START takes the whole of both buses, a stage operation its fixed registers. -/

namespace Sys2Proof

/-- The complete operation set (R57). -/
inductive Instr where
  /-- START: the host's command (`40_transform.md` R71). -/
  | start
  /-- DIFF: stage 1 (`41_difference.md` R85). -/
  | diff
  /-- ROWPASS: stage 2 (`42_butterfly.md` R92). -/
  | rowpass
  /-- COLPASS: stage 3 (`42_butterfly.md` R93). -/
  | colpass
  /-- RDIV: stage 4 (`43_rounding_divide.md` R101). -/
  | rdiv
deriving DecidableEq, Repr

end Sys2Proof
end

