-- ==== Sys2Proof/Machine/Dispatch.lean ====
section
/-! DEFINITION. One arm per operation of `30_encoding.md` R57, each one call of its meaning. -/

namespace Sys2Proof.Machine

def exec (i : Instr) (s : State) : Host.Outcome State Fault Refusal :=
  match i with
  | .start => Sys2Proof.Machine.execStart s
  | .diff => Sys2Proof.Machine.execDiff s
  | .rowpass => Sys2Proof.Machine.execRowpass s
  | .colpass => Sys2Proof.Machine.execColpass s
  | .rdiv => Sys2Proof.Machine.execRdiv s

end Sys2Proof.Machine
end

