-- ==== Sys2Proof/WellFormed.lean ====
section
/-! DEFINITION. The two formats and what is well formed (`30_encoding.md` R56, R58, R59). An instruction has no
operand, so each one is well formed; a code word is well formed when it fits its format's width. -/

namespace Sys2Proof

/-- The two formats (R56): CMD, the pin `start`; STG, the sequencer's field. -/
inductive Format where
  | cmd
  | stg
deriving DecidableEq, Repr

/-- How many bits a code word of the format has (R56). -/
def Format.width : Format → Nat
  | .cmd => 1
  | .stg => 2

/-- A code word fits its format. -/
def Format.wordOk (f : Format) (w : Nat) : Bool := decide (w < 2 ^ f.width)

/-- Well-formedness of an instruction. R58: no operation has an immediate or a selectable operand, so there is nothing
that could be ill formed. -/
def Instr.wellFormed : Instr → Bool
  | .start => true
  | .diff => true
  | .rowpass => true
  | .colpass => true
  | .rdiv => true

end Sys2Proof
end

