-- ==== Sys2Proof/Decode.lean ====
section
/-! DEFINITION. The decoders of the port and of the datapath and the encoder (`30_encoding.md` R56, R57), and the
host's view of them by table word. Total, each rejection by name. -/

namespace Sys2Proof

/-- Why a code word is no operation. -/
inductive DecodeError where
  /-- The CMD word 0: "no command" (R56). Safe: the engine does nothing. -/
  | noCommand
  /-- The word has bits its format does not have. Safe: no pin and no sequencer can hold such a word. -/
  | tooWide
deriving DecidableEq, Repr

/-- The two decoders (R57): for the port, `start = 1` is START and `start = 0` is nothing; for the datapath, `stg` is
0 DIFF, 1 ROWPASS, 2 COLPASS, 3 RDIV. -/
def decode : Format → Nat → Except DecodeError Instr
  | .cmd, 0 => .error .noCommand
  | .cmd, 1 => .ok .start
  | .cmd, _ => .error .tooWide
  | .stg, 0 => .ok .diff
  | .stg, 1 => .ok .rowpass
  | .stg, 2 => .ok .colpass
  | .stg, 3 => .ok .rdiv
  | .stg, _ => .error .tooWide

/-- The format and the code word of an operation (R57, column "code"). -/
def encode : Instr → Format × Nat
  | .start => (.cmd, 1)
  | .diff => (.stg, 0)
  | .rowpass => (.stg, 1)
  | .colpass => (.stg, 2)
  | .rdiv => (.stg, 3)

/-- The operation of a decoded word, none where the decoder rejects. -/
def accepted : Except DecodeError Instr → Option Instr
  | .ok i => some i
  | .error _ => none

/-- The operation whose table word is `w` in `nbits` bits. A word of one bit is a CMD word and one of two bits an STG
word. The two formats are told apart by where the word stands (a pin or the sequencer), not by a bit of it, so in a
wider container the code 1 stands for both START and ROWPASS: there the port's command is read first. DESIGN CHOICE,
log entry 7. -/
def decodeTableWord (nbits w : Nat) : Option Instr :=
  match nbits with
  | 0 => none
  | 1 => accepted (decode .cmd w)
  | 2 => accepted (decode .stg w)
  | _ =>
    match accepted (decode .cmd w) with
    | some i => some i
    | none => accepted (decode .stg w)

end Sys2Proof
end

