-- ==== Sys2Proof/Machine/Fetch.lean ====
section
/-! DEFINITION. Where the next operation comes from (`30_encoding.md` R56, R57): while a call is in flight the
sequencer's `STG`, otherwise the pin `start`. There is no fetch from memory (`20_memory.md` R49). -/

namespace Sys2Proof.Machine

/-- The code word that is looked at in this state, with its format: the stage step is enabled exactly when `BUSY = 1`
(`40_transform.md` R72), START only when `BUSY = 0` (R71). -/
def State.codeWord (s : State) : Format × Nat :=
  if s.busy = true then (.stg, s.stg.toNat) else (.cmd, s.pins.start.toNat)

/-- The operation that is enabled in this state, if any (R57: "`start = 1` and `BUSY = 0` START; anything else,
nothing"). -/
def State.fetch (s : State) : Option Instr := accepted (decode s.codeWord.1 s.codeWord.2)

/-- The state with no call in flight and the level `b` on the pin `start`, `rst` released: the port is looked at
next. -/
def State.atPort (s : State) (b : Bool) : State :=
  { s with busy := false, stg := 0, pins := { s.pins with rst := false, start := b } }

/-- The state with a call in flight whose next stage is `k`, `rst` released: the sequencer is looked at next. -/
def State.atStage (s : State) (k : BitVec 2) : State :=
  { s with busy := true, done := false, stg := k, pins := { s.pins with rst := false } }

/-- The state with the operation of a table word where the machine looks for its next operation (log entry 7). A word
that is no operation is placed as "no command". -/
def State.place (s : State) : Option Instr → State
  | some .start => s.atPort true
  | some .diff => s.atStage 0
  | some .rowpass => s.atStage 1
  | some .colpass => s.atStage 2
  | some .rdiv => s.atStage 3
  | none => s.atPort false

end Sys2Proof.Machine
end

