-- ==== Sys2Proof/Machine/Step.lean ====
section
/-! DEFINITION. One step of the machine, in the order of precedence of `60_exceptions.md` R128. -/

namespace Sys2Proof.Machine

/-- One indivisible step under the levels now on the pins (R128): `rst` asserted, reset; otherwise the operation that
is enabled, the stage step while `BUSY = 1` or START while `BUSY = 0`; otherwise nothing at all
(`40_transform.md` R72). An enabled stage step is always taken (DESIGN CHOICE, log entry 9). -/
def step (s : State) : Host.Outcome State Fault Refusal :=
  match s.pins.rst with
  | true => .next s.applyReset
  | false =>
    match s.fetch with
    | some i => exec i s
    | none => .next s

/-- `s` with the operation of a table word placed where `step` looks for its next operation (log entry 7). -/
def State.withFetchWord (s : State) (nbits w : Nat) : State := s.place (decodeTableWord nbits w)

end Sys2Proof.Machine
end

