-- ==== Sys2Proof/Machine/Port.lean ====
section
/-! DEFINITION. The host's side of the ports: what the output ports show and READC (`20_memory.md` R42;
`40_transform.md` R73), and runs under levels the host drives step by step (`20_memory.md` R41, R45). -/

namespace Sys2Proof.Machine

/-- The pin `busy`: always `BUSY` (R42). -/
def State.busyPin (s : State) : Bool := s.busy

/-- The pin `done`: always `DONE` (R42). -/
def State.donePin (s : State) : Bool := s.done

/-- The port `c_out`: `C` packed while `DONE = 1`; otherwise unspecified, a free value (R42, R73). DESIGN CHOICE, log
entry 6, unsafe in what it fixes beside the value: the free value is numbered by `draws` alone, so while `DONE = 0` the
port keeps one level until READC or a reset draws anew (an accepted START and the stage steps of a call leave it), where
the spec lets any two looks differ; and two instances with equal `draws` show equal levels, where the spec says nothing
of the two (R30, R133). -/
def State.cOut (s : State) : Bus :=
  if s.done = true then pack s.c else Config.freeBus s.draws

/-- READC (R73): the matrix the host copies from `c_out`, and the state after. While `DONE = 1` nothing changes; a read
at another time is not detected, and the model only counts the free value it drew, so that the next such read may
differ (log entries 5 and 6). -/
def State.readC (s : State) : Mat × State :=
  (unpack s.cOut, if s.done = true then s else s.draw)

/-- The next state of a step, if it has one. -/
def State.next? (s : State) : Option State :=
  match step s with
  | .next t => some t
  | .fault _ => none
  | .refused _ => none

/-- A run in which the host puts the listed levels on the pins, one entry before each step. -/
def State.runPins (s : State) : List Pins → Option State
  | [] => some s
  | p :: ps =>
    match (s.drive p).next? with
    | some t => t.runPins ps
    | none => none

end Sys2Proof.Machine
end

