-- ==== Sys2Proof/Machine/Instances.lean ====
section
/-! DEFINITION. Several engine instances (`10_state.md` R30; `60_exceptions.md` R133): a list of states, each with its
own pins, of which any one may step next (`20_memory.md` R47). N_ENGINES is the list's length. -/

namespace Sys2Proof.Machine

/-- The engine instances of a system. They share nothing and have no identifier (R30), and each counts its own free
values: two instances with equal `draws` take equal values where the spec leaves them unspecified, in the registers at
a reset and on `c_out` while `DONE = 0`. DESIGN CHOICE, unsafe, log entries 3 and 6. -/
abbrev Instances := List State

/-- The host of instance `k` puts `p` on that instance's pins and the instance takes a step; none where there is no
instance `k`. -/
def Instances.stepAt (es : Instances) (k : Nat) (p : Pins) : Option Instances :=
  match es[k]? with
  | some e => (e.drive p).next?.map fun t => es.set k t
  | none => none

/-- Steps of the instances in the order of a schedule, each entry an instance and the levels on its pins. -/
def Instances.run (es : Instances) : List (Nat × Pins) → Option Instances
  | [] => some es
  | a :: as =>
    match es.stepAt a.1 a.2 with
    | some fs => Instances.run fs as
    | none => none

/-- The levels a schedule gives instance `k`, in order. -/
def pinsOf (k : Nat) (sched : List (Nat × Pins)) : List Pins :=
  (sched.filter fun a => a.1 == k).map Prod.snd

end Sys2Proof.Machine
end

