-- ==== Sys2Proof/Machine/Script.lean ====
section
/-! DEFINITION. The host script notation and the pseudo-instruction TRANSFORM (`30_encoding.md` R61, R62), with the two
bare pin actions that `95_test_vectors.md` P5 writes in words. -/

namespace Sys2Proof.Machine

/-- A line of a host script (R61). -/
inductive Line where
  /-- `RESET`: assert and release `rst`. -/
  | reset
  /-- `START Rm, Pm`: drive the buses and `start = 1` until accepted. -/
  | start (R P : Mat)
  /-- `STEP`: the engine performs one stage step, which one decided by `STG`. -/
  | step
  /-- `WAIT`: the host does nothing until `done = 1`. -/
  | wait
  /-- `READC -> X`: the host copies `c_out`. -/
  | readC
  /-- The host presents START without waiting for acceptance (P5 line 5). -/
  | present (R P : Mat)
  /-- The host removes `start` (P5 line 7). -/
  | withdraw
deriving DecidableEq, Repr

/-- A script in progress: the engine and the matrices the host has read, oldest first. -/
structure Run where
  engine : State
  reads : List Mat
deriving DecidableEq, Repr

/-- The levels of a START command for operands `R` and `P` (`20_memory.md` R43). That `rst` is 0 with it is a DESIGN
CHOICE, log entry 13. -/
def Pins.command (R P : Mat) : Pins := { rst := false, start := true, rIn := pack R, pIn := pack P }

/-- The engine steps until `done = 1`; none if `k` steps do not reach it. -/
def State.awaitDone (s : State) : Nat → Option State
  | 0 => if s.done = true then some s else none
  | k + 1 => if s.done = true then some s else s.next?.bind fun t => t.awaitDone k

/-- The engine steps until the command on the pins is accepted, the accepting step included; none if `k` steps do not
reach it. -/
def State.awaitAccept (s : State) : Nat → Option State
  | 0 => none
  | k + 1 => if s.busy = true then s.next?.bind fun t => t.awaitAccept k else s.next?

/-- What a line does to the engine, none where the host would wait for ever. START: at most four stage steps are
outstanding and then it is accepted. WAIT: at most a waiting START and four stage steps (`40_transform.md` R76). STEP
is not enabled while `BUSY = 0` (R72) and then changes nothing. DESIGN CHOICE, log entry 13, unsafe for claims about
the pins: a pin that a line names no level for keeps the level it has. So `r_in` and `p_in` carry the operands of START
or of a presented command until another line drives the buses, after acceptance and across RESET too, where they may
hold anything and change freely (R41, R142 item 2); and `start` keeps its level across RESET. -/
def Line.act (l : Line) (s : State) : Option State :=
  match l with
  | .reset =>
    (s.drive { s.pins with rst := true }).next?.map fun t => t.drive { t.pins with rst := false }
  | .start R P =>
    ((s.drive (Pins.command R P)).awaitAccept 5).map fun t => t.drive { t.pins with start := false }
  | .step => if s.busy = true then s.next? else some s
  | .wait => s.awaitDone 5
  | .readC => some s.readC.2
  | .present R P => some (s.drive (Pins.command R P))
  | .withdraw => some (s.drive { s.pins with start := false })

/-- What a line gives the host to keep: READC gives the matrix read, the others nothing. -/
def Line.gives (l : Line) (s : State) : List Mat :=
  match l with
  | .readC => [s.readC.1]
  | .reset => []
  | .start _ _ => []
  | .step => []
  | .wait => []
  | .present _ _ => []
  | .withdraw => []

/-- The lines one after the other. -/
def Run.script (u : Run) : List Line → Option Run
  | [] => some u
  | l :: ls =>
    match l.act u.engine with
    | some t => Run.script { engine := t, reads := u.reads ++ l.gives u.engine } ls
    | none => none

/-- The pseudo-instruction `TRANSFORM Rm, Pm -> X` (R62): `START Rm, Pm`; `WAIT`; `READC -> X`. -/
def transformLines (R P : Mat) : List Line := [.start R P, .wait, .readC]

end Sys2Proof.Machine
end

