-- ==== Sys2Proof/Safety.lean ====
section
/-! DEFINITION. The terms claims use: the reachable combinations of the control bits (`10_state.md` R25), what the
registers hold in each (R22, R23, R28), the exact integer matrices and the range precondition
(`44_properties.md` R110), round-half-away-from-zero (`00_scope.md` R9), and what two engines must share to be
indistinguishable (R28). None of it is part of the engine: it evaluates no such condition (`60_exceptions.md` R126). -/

namespace Sys2Proof

/-- The value fits `int16` (R7). -/
abbrev Fits (v : Int) : Prop := -32768 ≤ v ∧ v ≤ 32767

/-- A 4×4 matrix of exact integers. -/
abbrev IntMat := Fin 4 → Fin 4 → Int

/-- The exact product of two integer matrices. -/
def IntMat.mul (X Y : IntMat) : IntMat := fun i j =>
  X i 0 * Y 0 j + X i 1 * Y 1 j + X i 2 * Y 2 j + X i 3 * Y 3 j

/-- The values of a matrix of elements. -/
def Mat.vals (M : Mat) : IntMat := fun i j => (M.elem i j).toInt

/-- `Dx = R − P`, exact (R110). -/
def exactD (R P : Mat) : IntMat := fun i j => R.vals i j - P.vals i j

/-- `Ex = Dx·A`, exact (R110). -/
def exactE (R P : Mat) : IntMat := IntMat.mul (exactD R P) Config.hadamard

/-- `Fx = A·Dx·A`, exact (R110). -/
def exactF (R P : Mat) : IntMat := IntMat.mul Config.hadamard (exactE R P)

/-- `x0 + x1`, `x2 + x3`, `x0 − x1`, `x2 − x3` all fit: the first layer of a butterfly (R110). -/
abbrev FirstLayerFits (x0 x1 x2 x3 : Int) : Prop :=
  Fits (x0 + x1) ∧ Fits (x2 + x3) ∧ Fits (x0 - x1) ∧ Fits (x2 - x3)

/-- The range precondition: no wrap happens anywhere in stages 1 to 3, that is, the 80 values of R110 fit. -/
abbrev InRange (R P : Mat) : Prop :=
  (∀ i j, Fits (exactD R P i j)) ∧
  (∀ i, FirstLayerFits (exactD R P i 0) (exactD R P i 1) (exactD R P i 2) (exactD R P i 3)) ∧
  (∀ i j, Fits (exactE R P i j)) ∧
  (∀ j, FirstLayerFits (exactE R P 0 j) (exactE R P 1 j) (exactE R P 2 j) (exactE R P 3 j)) ∧
  (∀ i j, Fits (exactF R P i j))

/-- All elements on the byte scale, 0 to 255 (R111). -/
abbrev ByteScale (M : Mat) : Prop := ∀ i j, 0 ≤ M.vals i j ∧ M.vals i j ≤ 255

/-- The row vector `x` times column `j` of A, exact (R91). -/
def rowTimes (x : Fin 4 → Int) (j : Fin 4) : Int :=
  x 0 * Config.hadamard 0 j + x 1 * Config.hadamard 1 j + x 2 * Config.hadamard 2 j + x 3 * Config.hadamard 3 j

/-- The matrix with the given rows of integers, as the document writes its literals (R6). -/
def matOf (r0 r1 r2 r3 : Vec4 Int) : Mat := Vec4.map (Vec4.map enc16) ⟨r0, r1, r2, r3⟩

/-- The zero matrix. -/
def zeroMat : Mat := Mat.ofFn fun _ _ => 0

/-- The matrix that is `v` at `(a, b)` and zero elsewhere (R115). -/
def impulse (a b : Fin 4) (v : Word) : Mat := Mat.ofFn fun i j => if i = a ∧ j = b then v else 0

/-- The matrix `m·A[a][i]·A[b][j]` of a basis function (R119). -/
def basisMat (a b : Fin 4) (m : Int) : Mat :=
  Mat.ofFn fun i j => enc16 (m * Config.hadamard a i * Config.hadamard b j)

/-- The operand R of the golden vector (`95_test_vectors.md` section 1.3). -/
def goldenR : Mat := matOf ⟨17, 18, 191, 20⟩ ⟨21, 22, 231, 24⟩ ⟨251, 26, 27, 28⟩ ⟨29, 301, 31, 32⟩

/-- `rhafz(x) = sgn(x)·floor(|x| + 1/2)` (R9), on the rationals: every quotient the rules round is one. -/
def rhafz (x : ℚ) : ℤ := x.num.sign * ⌊|x| + 1 / 2⌋

namespace Machine

/-- The control bits form one of the reachable combinations EMPTY, RUN(k), FULL (R25): `BUSY` and `DONE` are never
both 1, and `STG` is 0 while `BUSY = 0` (R24). -/
def State.Legal (s : State) : Prop := ¬(s.busy = true ∧ s.done = true) ∧ (s.busy = false → s.stg = 0)

/-- What `W` holds when stage `k` of a call on the operands `R`, `P` is next (R22); before stage 1 anything. -/
def HoldsBeforeStage (R P M : Mat) (k : BitVec 2) : Prop :=
  (k = 1 → M = diffM R P) ∧ (k = 2 → M = rowpassM (diffM R P)) ∧ (k = 3 → M = stage3 R P)

/-- The registers agree with the control bits: in flight, `W` is the intermediate result of the operands in `RQ` and
`PQ` (R22); at the end, `C` is their transform and `W` still their stage-3 result (R77). -/
def State.CallInv (s : State) : Prop :=
  (s.busy = true → HoldsBeforeStage s.rq s.pq s.w s.stg) ∧
  (s.done = true → s.w = stage3 s.rq s.pq ∧ s.c = transform s.rq s.pq)

/-- Two states that agree on all that can matter later: the control bits, the registers a call in flight will still
read, and the result while it may be read (R28). Everything else is leftovers. -/
def State.Indist (s t : State) : Prop :=
  s.stg = t.stg ∧ s.busy = t.busy ∧ s.done = t.done ∧
  (s.busy = true → s.stg = 0 → s.rq = t.rq ∧ s.pq = t.pq) ∧
  (s.busy = true → s.stg ≠ 0 → s.w = t.w) ∧
  (s.done = true → s.c = t.c)

end Machine

end Sys2Proof
end

