-- ==== Sys2Proof/Certificates/Slice0/Obligations.lean ====
section
/-! DEFINITION. The statements about the model, each from the spec's numbered rules. -/

open Sys2Proof Sys2Proof.Machine

/-! ### Number format, buses, arithmetic -/

/-- R7: `wrap16` is reduction modulo 2^16 into the signed range, the identity on `int16`; every element is an
`int16`. -/
def Obligations.WrapIsReductionModulo65536 : Prop :=
  (∀ v : Int, (wrap16 v).toInt = (v + 32768) % 65536 - 32768) ∧
  (∀ v : Int, Fits v → (wrap16 v).toInt = v) ∧
  (∀ x : Word, Fits x.toInt)

/-- R8: truncating division and its remainder, with the rule's examples. -/
def Obligations.TruncatingDivisionAndRemainder : Prop :=
  (∀ a b : Int, b ≠ 0 →
    tdiv a b = a.sign * b.sign * ⌊(|a| : ℚ) / |b|⌋ ∧
    trem a b = a - b * tdiv a b ∧
    (trem a b = 0 ∨ (trem a b).sign = a.sign) ∧
    |trem a b| < |b|) ∧
  tdiv (-40) 16 = -2 ∧ trem (-40) 16 = -8 ∧ tdiv (-8) 8 = -1 ∧ tdiv 7 8 = 0 ∧ tdiv (-7) 8 = 0

/-- R9, on the rationals (log entry 12): the rounding of claims is to the nearest integer, a value halfway between two
going to the one of larger magnitude, with the rule's examples. -/
def Obligations.RoundingTiesGoAwayFromZero : Prop :=
  (∀ x : ℚ, |(rhafz x : ℚ) - x| ≤ 1 / 2) ∧
  (∀ n : ℕ, rhafz (n + 1 / 2) = n + 1 ∧ rhafz (-(n + 1 / 2)) = -(n + 1)) ∧
  rhafz (1 / 2) = 1 ∧ rhafz (-(1 / 2)) = -1 ∧ rhafz (5 / 4) = 1 ∧ rhafz (-(5 / 2)) = -3

/-- R55: an element is a 16-bit two's-complement number, and `enc16` is the inverse of reading one. -/
def Obligations.ElementsAreTwosComplement : Prop :=
  (∀ b : Word, b.toInt = -32768 * ((b.getLsbD 15).toNat : Int) +
    ∑ n ∈ Finset.range 15, 2 ^ n * ((b.getLsbD n).toNat : Int)) ∧
  (∀ b : Word, Fits b.toInt ∧ enc16 b.toInt = b) ∧
  (∀ v : Int, Fits v → (enc16 v).toInt = v ∧ ((enc16 v).toNat : Int) = v % 65536)

/-- R43: element `(i, j)` of a matrix travels in bits `16k+15 : 16k` of a bus, `k = 4i + j`, least significant bit
lowest and sign bit highest; reading and writing are inverse to each other; the rule's worked example. -/
def Obligations.BusPackingIsRowMajor : Prop :=
  (∀ (M : Mat) (i j : Fin 4),
    (pack M).extractLsb' (16 * (4 * i.val + j.val)) 16 = M.elem i j ∧
    ((pack M).getLsbD (16 * (4 * i.val + j.val)) = true ↔ M.vals i j % 2 = 1) ∧
    ((pack M).getLsbD (16 * (4 * i.val + j.val) + 15) = true ↔ M.vals i j < 0)) ∧
  (∀ (b : Bus) (i j : Fin 4), (unpack b).elem i j = b.extractLsb' (16 * (4 * i.val + j.val)) 16) ∧
  (∀ M : Mat, unpack (pack M) = M) ∧
  (∀ b : Bus, pack (unpack b) = b) ∧
  pack goldenR = 0x0020001f012d001d001c001b001a00fb001800e700160015001400bf00120011#256

/-- R91: the butterfly is the row vector times A, wrapped once; without a wrap among its eight values it is exact; and
outputs that fit make the four temporaries fit. -/
def Obligations.ButterflyIsRowTimesHadamard : Prop :=
  ∀ x : Vec4 Word,
    (∀ j, (bfly4 x).get j = wrap16 (rowTimes (fun k => (x.get k).toInt) j)) ∧
    bfly4 x = ⟨wrap16 (x.x0.toInt + x.x1.toInt + x.x2.toInt + x.x3.toInt),
      wrap16 (x.x0.toInt + x.x1.toInt - x.x2.toInt - x.x3.toInt),
      wrap16 (x.x0.toInt - x.x1.toInt - x.x2.toInt + x.x3.toInt),
      wrap16 (x.x0.toInt - x.x1.toInt + x.x2.toInt - x.x3.toInt)⟩ ∧
    (FirstLayerFits x.x0.toInt x.x1.toInt x.x2.toInt x.x3.toInt →
      (∀ j, Fits (rowTimes (fun k => (x.get k).toInt) j)) →
      ∀ j, ((bfly4 x).get j).toInt = rowTimes (fun k => (x.get k).toInt) j) ∧
    ((∀ j, Fits (rowTimes (fun k => (x.get k).toInt) j)) →
      FirstLayerFits x.x0.toInt x.x1.toInt x.x2.toInt x.x3.toInt)

/-- R100: `RDIV16` by its quotient, remainder and half, with their ranges and the table of the half. -/
def Obligations.RoundingDivideByQuotientAndRemainder : Prop :=
  ∀ v : Word,
    let q := tdiv v.toInt 16
    let r := v.toInt - 16 * q
    let h := tdiv r 8
    (rdiv16 v).toInt = q + h ∧
    (-2048 ≤ q ∧ q ≤ 2047) ∧
    r = trem v.toInt 16 ∧ (-15 ≤ r ∧ r ≤ 15) ∧ (r = 0 ∨ r.sign = v.toInt.sign) ∧
    (r ≤ -8 → h = -1) ∧ (-7 ≤ r → r ≤ 7 → h = 0) ∧ (8 ≤ r → h = 1)

/-- R102: `RDIV16` is the real quotient by 16 rounded half away from zero, and its closed forms. -/
def Obligations.RoundingDivideIsHalfAwayFromZero : Prop :=
  ∀ v : Word,
    (rdiv16 v).toInt = rhafz ((v.toInt : ℚ) / 16) ∧
    (rdiv16 v).toInt = v.toInt.sign * ((|v.toInt| + 8) / 16) ∧
    (0 ≤ v.toInt → (rdiv16 v).toInt = (v.toInt + 8) / 16) ∧
    (v.toInt < 0 → (rdiv16 v).toInt = -((-v.toInt + 8) / 16)) ∧
    (v.toInt ≠ -32768 → (rdiv16 (-v)).toInt = -(rdiv16 v).toInt)

/-- R103: where the two arithmetic shifts differ from `RDIV16`. -/
def Obligations.ArithmeticShiftIsNotRoundingDivide : Prop :=
  ∀ v : Word,
    (v.sshiftRight 4).toInt = v.toInt / 16 ∧
    (v.sshiftRight 4 ≠ rdiv16 v ↔
      (0 ≤ v.toInt ∧ 8 ≤ v.toInt % 16) ∨ (v.toInt < 0 ∧ 9 ≤ v.toInt % 16)) ∧
    ((v.toInt + 8) / 16 ≠ (rdiv16 v).toInt ↔ v.toInt < 0 ∧ v.toInt % 16 = 8)

/-- R104: the range of `RDIV16`, both bounds reached; every element stage 4 writes fits 13 bits signed; the ranges of F
and C for byte-scale operands. -/
def Obligations.RoundingDivideRange : Prop :=
  (∀ v : Word, -2048 ≤ (rdiv16 v).toInt ∧ (rdiv16 v).toInt ≤ 2048) ∧
  (∀ v : Word, v.toInt = -32768 → (rdiv16 v).toInt = -2048) ∧
  (∀ v : Word, 32760 ≤ v.toInt → (rdiv16 v).toInt = 2048) ∧
  (∀ (M : Mat) (i j : Fin 4), -4096 ≤ (rdivM M).vals i j ∧ (rdivM M).vals i j ≤ 4095) ∧
  (∀ R P : Mat, ByteScale R → ByteScale P → ∀ i j,
    (-4080 ≤ (stage3 R P).vals i j ∧ (stage3 R P).vals i j ≤ 4080) ∧
    (-255 ≤ (transform R P).vals i j ∧ (transform R P).vals i j ≤ 255))

/-! ### The operations: where each completes, its result and its frame -/

/-- R71: START while no call is in flight takes both operands off the buses and begins the call; nothing else
changes. -/
def Obligations.StartAcceptedWhenIdle : Prop :=
  ∀ s : State, s.busy = false → ∃ t, exec .start s = .next t ∧
    (∀ i j : Fin 4, t.rq.elem i j = s.pins.rIn.extractLsb' (16 * (4 * i.val + j.val)) 16) ∧
    (∀ i j : Fin 4, t.pq.elem i j = s.pins.pIn.extractLsb' (16 * (4 * i.val + j.val)) 16) ∧
    t.stg = 0 ∧ t.busy = true ∧ t.done = false ∧
    t.w = s.w ∧ t.c = s.c ∧ t.pins = s.pins ∧ t.draws = s.draws

/-- R71: START presented while a call is in flight is not accepted: no state changes, and the step of the machine is
the one it would take were no command presented. -/
def Obligations.StartNotAcceptedWhileBusy : Prop :=
  ∀ s : State, s.busy = true → exec .start s = .next s ∧
    (s.pins.rst = false → ∃ t : State, step (s.drive { s.pins with start := false }) =
        .next (t.drive { s.pins with start := false }) ∧
      step (s.drive { s.pins with start := true }) = .next (t.drive { s.pins with start := true }))

/-- R85: DIFF stores the exact difference reduced to 16 bits, element by element; it is exact precisely when it fits,
and always for byte-scale operands; nothing else changes but the sequencer. -/
def Obligations.DiffStoresWrappedDifference : Prop :=
  decode .stg 0 = .ok .diff ∧
  ∀ s : State, s.busy = true → s.stg = 0 → ∃ t, exec .diff s = .next t ∧
    (∀ i j, (t.w.vals i j = (s.rq.vals i j - s.pq.vals i j + 32768) % 65536 - 32768) ∧
      (-65535 ≤ s.rq.vals i j - s.pq.vals i j ∧ s.rq.vals i j - s.pq.vals i j ≤ 65535) ∧
      (t.w.vals i j = s.rq.vals i j - s.pq.vals i j ↔ Fits (s.rq.vals i j - s.pq.vals i j)) ∧
      (ByteScale s.rq → ByteScale s.pq → t.w.vals i j = s.rq.vals i j - s.pq.vals i j ∧
        -255 ≤ t.w.vals i j ∧ t.w.vals i j ≤ 255)) ∧
    t.stg = 1 ∧ t.rq = s.rq ∧ t.pq = s.pq ∧ t.c = s.c ∧ t.busy = s.busy ∧ t.done = s.done ∧
    t.pins = s.pins ∧ t.draws = s.draws

/-- R92: ROWPASS replaces each row of W by its butterfly, the product `W·A` reduced to 16 bits; each row depends on that
row alone; the corner cases of the rule; nothing else changes but the sequencer. -/
def Obligations.RowpassMultipliesByHadamard : Prop :=
  decode .stg 1 = .ok .rowpass ∧
  ∀ s : State, s.busy = true → s.stg = 1 → ∃ t, exec .rowpass s = .next t ∧
    (∀ i, t.w.get i = bfly4 (s.w.get i)) ∧
    (∀ i j, t.w.elem i j = wrap16 (IntMat.mul s.w.vals Config.hadamard i j)) ∧
    (∀ (i : Fin 4) (m : Int), m ≤ 8191 → (∀ k, |s.w.vals i k| ≤ m) →
      FirstLayerFits (s.w.vals i 0) (s.w.vals i 1) (s.w.vals i 2) (s.w.vals i 3) ∧
      (|s.w.vals i 0 + s.w.vals i 1| ≤ 2 * m ∧ |s.w.vals i 2 + s.w.vals i 3| ≤ 2 * m ∧
        |s.w.vals i 0 - s.w.vals i 1| ≤ 2 * m ∧ |s.w.vals i 2 - s.w.vals i 3| ≤ 2 * m) ∧
      ∀ j, t.w.vals i j = IntMat.mul s.w.vals Config.hadamard i j ∧ |t.w.vals i j| ≤ 4 * m) ∧
    (∀ i : Fin 4, (∀ k, s.w.elem i k = 0) → ∀ j, t.w.elem i j = 0) ∧
    (∀ (i : Fin 4) (v : Int), (∀ k, s.w.vals i k = v) → Fits (4 * v) →
      t.w.vals i 0 = 4 * v ∧ t.w.vals i 1 = 0 ∧ t.w.vals i 2 = 0 ∧ t.w.vals i 3 = 0) ∧
    t.stg = 2 ∧ t.rq = s.rq ∧ t.pq = s.pq ∧ t.c = s.c ∧ t.busy = s.busy ∧ t.done = s.done ∧
    t.pins = s.pins ∧ t.draws = s.draws

/-- R93: COLPASS replaces each column of W by its butterfly, the product `A·W` reduced to 16 bits; nothing else changes
but the sequencer. With the row pass before it: no wrap in either pass up to magnitude 2047, and the wrap at 2048. -/
def Obligations.ColpassMultipliesByHadamard : Prop :=
  decode .stg 2 = .ok .colpass ∧
  (∀ s : State, s.busy = true → s.stg = 2 → ∃ t, exec .colpass s = .next t ∧
    (∀ j, Vec4.ofFn (fun i => t.w.elem i j) = bfly4 (Vec4.ofFn fun i => s.w.elem i j)) ∧
    (∀ i j, t.w.elem i j = wrap16 (IntMat.mul Config.hadamard s.w.vals i j)) ∧
    t.stg = 3 ∧ t.rq = s.rq ∧ t.pq = s.pq ∧ t.c = s.c ∧ t.busy = s.busy ∧ t.done = s.done ∧
    t.pins = s.pins ∧ t.draws = s.draws) ∧
  (∀ (M : Mat) (m : Int), m ≤ 2047 → (∀ i j, |M.vals i j| ≤ m) → ∀ i j,
    |(rowpassM M).vals i j| ≤ 4 * m ∧
    (colpassM (rowpassM M)).vals i j = IntMat.mul Config.hadamard (IntMat.mul M.vals Config.hadamard) i j ∧
    |(colpassM (rowpassM M)).vals i j| ≤ 16 * m) ∧
  (∀ M : Mat, (∀ i j, M.vals i j = 2048) →
    IntMat.mul Config.hadamard (IntMat.mul M.vals Config.hadamard) 0 0 = 32768 ∧
    (colpassM (rowpassM M)).vals 0 0 = -32768)

/-- R101: RDIV replaces C by the elements of W divided by 16 and rounded half away from zero, clears BUSY and sets DONE;
W and everything else keep their values and the sequencer returns to 0. -/
def Obligations.RdivDeliversRoundedQuotients : Prop :=
  decode .stg 3 = .ok .rdiv ∧
  ∀ s : State, s.busy = true → s.stg = 3 → ∃ t, exec .rdiv s = .next t ∧
    (∀ i j, t.c.elem i j = rdiv16 (s.w.elem i j) ∧ t.c.vals i j = rhafz ((s.w.vals i j : ℚ) / 16)) ∧
    t.busy = false ∧ t.done = true ∧ t.stg = 0 ∧
    t.w = s.w ∧ t.rq = s.rq ∧ t.pq = s.pq ∧ t.pins = s.pins ∧ t.draws = s.draws

/-- The model's reading of R72 and of the table's conditions (log entry 2): a stage operation given out of turn is not
performed, and nothing changes. -/
def Obligations.StageOperationOutOfTurnChangesNothing : Prop :=
  ∀ (i : Instr) (k : Nat) (s : State), encode i = (.stg, k) → ¬(s.busy = true ∧ s.stg.toNat = k) →
    exec i s = .next s

/-- R125, R75: no operation and no step ends in anything but a next state, whatever the state and the operands. -/
def Obligations.NothingEverStops : Prop :=
  (∀ (i : Instr) (s : State), ∃ t, exec i s = .next t) ∧ (∀ s : State, ∃ t, step s = .next t)

/-! ### Encoding and stepping -/

/-- R57: the written-out code words decode to the operations they stand for; `start = 0` is no command. -/
def Obligations.WrittenCodesDecode : Prop :=
  decode .cmd 0b1 = .ok .start ∧ decode .stg 0b00 = .ok .diff ∧ decode .stg 0b01 = .ok .rowpass ∧
  decode .stg 0b10 = .ok .colpass ∧ decode .stg 0b11 = .ok .rdiv ∧ decode .cmd 0b0 = .error .noCommand

/-- R56, R57, R59: decoding an operation's code word gives the operation back; a word that decodes is the code word of
what it decodes to; every STG word names a stage. -/
def Obligations.EncodeAndDecodeAgree : Prop :=
  (∀ i : Instr, (encode i).1.wordOk (encode i).2 = true ∧ decode (encode i).1 (encode i).2 = .ok i) ∧
  (∀ (f : Format) (w : Nat) (i : Instr), decode f w = .ok i → encode i = (f, w) ∧ f.wordOk w = true) ∧
  (∀ k : BitVec 2, ∃ i, decode .stg k.toNat = .ok i)

/-- R57, R72: without reset, the step runs the operation whose code word is looked at: `STG` while a call is in flight,
`start` otherwise; where that is no operation nothing happens. -/
def Obligations.StepRunsTheDecodedOperation : Prop :=
  ∀ s : State, s.pins.rst = false →
    (∀ i : Instr, s.busy = true → decode .stg s.stg.toNat = .ok i → i.wellFormed = true → step s = exec i s) ∧
    (∀ i : Instr, s.busy = false → decode .cmd s.pins.start.toNat = .ok i → i.wellFormed = true →
      step s = exec i s) ∧
    (∀ e : DecodeError, s.busy = false → decode .cmd s.pins.start.toNat = .error e → step s = .next s)

/-- The placing of a table word: the very next step runs exactly the operation the decoder reads from it (log entry
7). -/
def Obligations.PlacedWordIsTheNextOperation : Prop :=
  ∀ (s : State) (nbits w : Nat) (i : Instr), decodeTableWord nbits w = some i →
    step (s.withFetchWord nbits w) = exec i (s.withFetchWord nbits w)

/-- R72: the stage step performs the operation named by `STG` and advances the sequencer, for each of the four stages;
without a call in flight and without a command the engine does nothing; only a stage step changes W or C. -/
def Obligations.StageStepIsSequenced : Prop :=
  (∀ s : State, s.pins.rst = false → s.busy = true → ∃ t, step s = .next t ∧
    t.stg.toNat = (s.stg.toNat + 1) % 4 ∧
    (s.stg = 0 → t.w = diffM s.rq s.pq) ∧
    (s.stg = 1 → t.w = rowpassM s.w) ∧
    (s.stg = 2 → t.w = colpassM s.w) ∧
    (s.stg = 3 → t.c = rdivM s.w ∧ t.busy = false ∧ t.done = true ∧ t.w = s.w) ∧
    (s.stg ≠ 3 → t.c = s.c ∧ t.busy = true ∧ t.done = s.done) ∧
    t.rq = s.rq ∧ t.pq = s.pq ∧ t.pins = s.pins ∧ t.draws = s.draws) ∧
  (∀ s : State, s.pins.rst = false → s.busy = false → s.pins.start = false → step s = .next s) ∧
  (∀ s t : State, s.pins.rst = false → step s = .next t → t.w ≠ s.w ∨ t.c ≠ s.c → s.busy = true)

/-- R128: the order of precedence. Reset wins over a START and over a stage step; while a call is in flight the stage
step proceeds whatever the command pin says, and a command still presented after stage 4 is then accepted; otherwise
START is accepted. START and the stage step are never enabled together. -/
def Obligations.ResetThenStageThenStart : Prop :=
  (∀ s : State, s.pins.rst = true → ∃ t, step s = .next t ∧ t.busy = false ∧ t.done = false ∧ t.stg = 0 ∧
    t.pins = s.pins) ∧
  (∀ s : State, s.pins.rst = false → s.busy = true → ∃ t, step s = .next t ∧
    t.stg.toNat = (s.stg.toNat + 1) % 4 ∧ t.rq = s.rq ∧ t.pq = s.pq ∧
    (s.stg = 3 → t.busy = false ∧ (s.pins.start = true → ∃ u, step t = .next u ∧
      u.busy = true ∧ u.done = false ∧ u.rq = unpack s.pins.rIn ∧ u.pq = unpack s.pins.pIn))) ∧
  (∀ s : State, s.pins.rst = false → s.busy = false → s.pins.start = true → ∃ t, step s = .next t ∧
    t.busy = true ∧ t.done = false ∧ t.stg = 0 ∧ t.rq = unpack s.pins.rIn ∧ t.pq = unpack s.pins.pIn) ∧
  (∀ (s : State) (i : Instr), s.fetch = some i → (i = .start ↔ s.busy = false))

/-! ### Reset -/

/-- R31: the control bits after reset. The matrix registers are unspecified, and nothing is said of them. -/
def Obligations.ResetClearsControlBits : Prop :=
  State.reset.busy = false ∧ State.reset.done = false ∧ State.reset.stg = 0

/-- R140: reset in any state clears the control bits and abandons the call; while `rst` stays asserted the engine stays
in that state, and until a command is given with `rst` released no stage step happens and `done` does not rise. -/
def Obligations.ResetAbandonsTheCall : Prop :=
  ∀ s : State, s.pins.rst = true → ∃ t, step s = .next t ∧
    t.busy = false ∧ t.done = false ∧ t.stg = 0 ∧ t.pins = s.pins ∧
    ∀ ps : List Pins, (∀ p ∈ ps, p.rst = true ∨ p.start = false) →
      ∃ u, t.runPins ps = some u ∧ u.busy = false ∧ u.done = false ∧ u.stg = 0

/-! ### Invariants and whole-machine rules -/

/-- R25: every step keeps the control bits one of EMPTY, RUN(k), FULL. -/
def Obligations.ControlBitsStayLegal : Prop :=
  ∀ s t : State, s.Legal → step s = .next t → t.Legal

/-- R25, R31: the state after reset is legal. -/
def Obligations.ResetIsLegal : Prop := State.reset.Legal

/-- R22, R28, R77: every step keeps the registers in agreement with the control bits: in flight, W holds D, E or F of
the operands in RQ and PQ; at the end, C holds their transform. -/
def Obligations.RegistersFollowTheCall : Prop :=
  ∀ s t : State, s.Legal → s.CallInv → step s = .next t → t.Legal ∧ t.CallInv

/-- The state after reset meets that invariant, whatever the matrix registers hold (they are free values). -/
def Obligations.ResetFollowsTheCall : Prop := State.reset.CallInv

/-- R20 (column "written by"), R21, R22, R23: which step changes which register. -/
def Obligations.RegistersHaveTheirWriters : Prop :=
  ∀ s t : State, s.pins.rst = false → step s = .next t →
    (t.rq ≠ s.rq ∨ t.pq ≠ s.pq → s.busy = false ∧ s.pins.start = true) ∧
    (t.w ≠ s.w → s.busy = true ∧ s.stg ≠ 3) ∧
    (t.c ≠ s.c → s.busy = true ∧ s.stg = 3) ∧
    (t.stg ≠ s.stg → s.busy = true ∨ s.pins.start = true) ∧
    (t.busy ≠ s.busy → (s.busy = true ∧ s.stg = 3) ∨ (s.busy = false ∧ s.pins.start = true)) ∧
    (t.done ≠ s.done → (s.busy = true ∧ s.stg = 3) ∨ (s.busy = false ∧ s.pins.start = true)) ∧
    t.draws = s.draws

/-- R46: no step writes what the host owns, the levels on the input pins. -/
def Obligations.HostPinsAreNeverWritten : Prop := ∀ s t : State, step s = .next t → t.pins = s.pins

/-- R41: the operand buses are looked at only at an accepted START, which takes both whole; in every other step other
buses give the same step. -/
def Obligations.BusesSampledOnlyAtAcceptance : Prop :=
  (∀ s : State, s.pins.rst = false → s.busy = false → s.pins.start = true → ∃ t, step s = .next t ∧
    t.rq = unpack s.pins.rIn ∧ t.pq = unpack s.pins.pIn) ∧
  (∀ (s t : State) (r p : Bus), (s.pins.rst = true ∨ s.busy = true ∨ s.pins.start = false) → step s = .next t →
    step (s.drive { s.pins with rIn := r, pIn := p }) = .next (t.drive { s.pins with rIn := r, pIn := p }))

/-- R42, R73: while `DONE = 1`, READC returns `C`, changes nothing and may be repeated. While `DONE = 0` it changes
nothing of the engine; the value is then the model's free value (log entry 6), and this holds whatever that is. -/
def Obligations.ReadcReturnsTheResult : Prop :=
  (∀ s : State, s.done = true → s.readC = (s.c, s) ∧ s.cOut = pack s.c) ∧
  (∀ s : State, s.readC.2.rq = s.rq ∧ s.readC.2.pq = s.pq ∧ s.readC.2.w = s.w ∧ s.readC.2.c = s.c ∧
    s.readC.2.stg = s.stg ∧ s.readC.2.busy = s.busy ∧ s.readC.2.done = s.done ∧ s.readC.2.pins = s.pins)

/-! ### The call -/

/-- R94: after stages 1 to 3, W is the exact product `A·(R − P)·A` wrapped once; after stage 2 it is `(R − P)·A` wrapped;
the other order of the passes gives the same F, by way of `A·(R − P)` wrapped. -/
def Obligations.StageThreeIsTheProductWrappedOnce : Prop :=
  (∀ (s : State) (p1 p2 p3 : Pins), s.busy = true → s.stg = 0 → p1.rst = false → p2.rst = false → p3.rst = false →
    (∃ t, s.runPins [p1, p2] = some t ∧ t.stg = 2 ∧ ∀ i j, t.w.elem i j = wrap16 (exactE s.rq s.pq i j)) ∧
    (∃ t, s.runPins [p1, p2, p3] = some t ∧ t.stg = 3 ∧
      ∀ i j, t.w.elem i j = wrap16 (exactF s.rq s.pq i j))) ∧
  (∀ M : Mat, rowpassM (colpassM M) = colpassM (rowpassM M)) ∧
  (∀ (R P : Mat) (i j : Fin 4),
    (colpassM (diffM R P)).elem i j = wrap16 (IntMat.mul Config.hadamard (exactD R P) i j))

/-- R74: from any state with no call in flight, whatever its registers and DONE hold, an accepted START and four stage
steps end in FULL with the transform of the operands on the buses at acceptance, whatever the host does with the
command pin and the buses meanwhile. -/
def Obligations.CallDeliversTransform : Prop :=
  ∀ (s : State) (p0 p1 p2 p3 p4 : Pins), s.busy = false → p0.start = true →
    p0.rst = false → p1.rst = false → p2.rst = false → p3.rst = false → p4.rst = false →
    ∃ t, s.runPins [p0, p1, p2, p3, p4] = some t ∧
      t.busy = false ∧ t.done = true ∧ t.stg = 0 ∧
      t.c = transform (unpack p0.rIn) (unpack p0.pIn) ∧
      t.rq = unpack p0.rIn ∧ t.pq = unpack p0.pIn ∧ t.w = stage3 (unpack p0.rIn) (unpack p0.pIn)

/-- R76: a call in flight ends after exactly the stages outstanding, and no earlier, when it is not reset. -/
def Obligations.CallEndsAfterOutstandingStages : Prop :=
  ∀ (s : State) (ps : List Pins), s.Legal → s.busy = true → (∀ p ∈ ps, p.rst = false) →
    (ps.length < 4 - s.stg.toNat → ∃ t, s.runPins ps = some t ∧ t.busy = true ∧ t.done = false) ∧
    (ps.length = 4 - s.stg.toNat → ∃ t, s.runPins ps = some t ∧ t.busy = false ∧ t.done = true)

/-- R28: leftovers never matter. Two engines that agree on the control bits, on what a call in flight still reads and
on a result that may be read show the same at their ports under every behaviour of the host, and go on agreeing. -/
def Obligations.LeftoversAreNeverObserved : Prop :=
  ∀ (ps : List Pins) (s t : State), s.Indist t → ∃ s' t',
    s.runPins ps = some s' ∧ t.runPins ps = some t' ∧ s'.Indist t' ∧
    s'.busyPin = t'.busyPin ∧ s'.donePin = t'.donePin ∧ (s'.donePin = true → s'.cOut = t'.cOut)

/-- R114, R141: what came before a call never matters. Two idle engines, one perhaps just reset and the other with any
result, that accept the same START are from then on the same to the host. -/
def Obligations.HistoryNeverMatters : Prop :=
  ∀ (p : Pins) (ps : List Pins) (s t : State), s.busy = false → t.busy = false → p.rst = false → p.start = true →
    ∃ s' t', s.runPins (p :: ps) = some s' ∧ t.runPins (p :: ps) = some t' ∧ s'.Indist t' ∧
      (s'.donePin = true → s'.cOut = t'.cOut)

/-- R77: the pseudo-instruction TRANSFORM on an engine with no call in flight gives the host the transform of its
operands and leaves the engine FULL with the operands, the stage-3 result and the result in its registers. How the
lines START and WAIT wait and what START does with the pins is the model's choice, log entry 13. -/
def Obligations.TransformScriptDeliversTransform : Prop :=
  ∀ (s : State) (R P : Mat) (xs : List Mat), s.busy = false →
    ∃ t, Run.script { engine := s, reads := xs } (transformLines R P) =
        some { engine := t, reads := xs ++ [transform R P] } ∧
      t.busy = false ∧ t.done = true ∧ t.stg = 0 ∧ t.c = transform R P ∧ t.rq = R ∧ t.pq = P ∧
      t.w = colpassM (rowpassM (diffM R P))

/-- R47: whatever the interleaving of several instances, it runs, and each instance does what it would do alone under
its own pins. -/
def Obligations.InterleavingNeverMatters : Prop :=
  ∀ (sched : List (Nat × Pins)) (es : Instances), (∀ a ∈ sched, a.1 < es.length) →
    ∃ fs, Instances.run es sched = some fs ∧ fs.length = es.length ∧
      ∀ (k : Nat) (e : State), es[k]? = some e → ∃ f, fs[k]? = some f ∧ e.runPins (pinsOf k sched) = some f

/-! ### The laws of transform -/

/-- R110: under the range precondition the results of stages 1, 2 and 3 are the exact integer matrices. -/
def Obligations.InRangeMeansNoWrap : Prop :=
  ∀ R P : Mat, InRange R P → ∀ i j,
    (diffM R P).vals i j = exactD R P i j ∧
    (rowpassM (diffM R P)).vals i j = exactE R P i j ∧
    (stage3 R P).vals i j = exactF R P i j

/-- R111: the three sufficient conditions for the range precondition, with their bounds; the third is also
necessary. -/
def Obligations.SufficientConditionsForInRange : Prop :=
  (∀ R P : Mat, ByteScale R → ByteScale P → InRange R P ∧ ∀ i j,
    |exactD R P i j| ≤ 255 ∧ |exactE R P i j| ≤ 1020 ∧ |exactF R P i j| ≤ 4080 ∧
    |exactD R P i 0 + exactD R P i 1| ≤ 510 ∧ |exactD R P i 2 + exactD R P i 3| ≤ 510 ∧
    |exactD R P i 0 - exactD R P i 1| ≤ 510 ∧ |exactD R P i 2 - exactD R P i 3| ≤ 510 ∧
    |exactE R P 0 j + exactE R P 1 j| ≤ 2040 ∧ |exactE R P 2 j + exactE R P 3 j| ≤ 2040 ∧
    |exactE R P 0 j - exactE R P 1 j| ≤ 2040 ∧ |exactE R P 2 j - exactE R P 3 j| ≤ 2040) ∧
  (∀ R P : Mat, (∀ i j, |exactD R P i j| ≤ 2047) →
    InRange R P ∧ ∀ i j, |exactE R P i j| ≤ 8188 ∧ |exactF R P i j| ≤ 32752) ∧
  (∀ R P : Mat, (∀ i j, exactD R P i j = 2048) → exactF R P 0 0 = 32768 ∧ ¬InRange R P) ∧
  (∀ R P : Mat, InRange R P ↔ ∀ i j, Fits (exactF R P i j))

/-- R112: under the range precondition, and so for byte-scale operands, the transform is the direct computation
rounded half away from zero, element by element. -/
def Obligations.TransformIsTheRoundedProduct : Prop :=
  (∀ R P : Mat, InRange R P → ∀ i j, (transform R P).vals i j = rhafz ((exactF R P i j : ℚ) / 16)) ∧
  (∀ R P : Mat, ByteScale R → ByteScale P → ∀ i j,
    (transform R P).vals i j = rhafz ((exactF R P i j : ℚ) / 16))

/-- R113: the round trip. The transform of the forward transform of `C0` with the same prediction is `C0`. -/
def Obligations.RoundTripRecoversCoefficients : Prop :=
  ∀ R P C0 : Mat,
    (∀ i j, R.vals i j = IntMat.mul Config.hadamard (IntMat.mul C0.vals Config.hadamard) i j + P.vals i j) →
    (∀ i j, -2048 ≤ C0.vals i j ∧ C0.vals i j ≤ 2047) →
    InRange R P ∧ transform R P = C0

/-- R115: the eight rounding cases, and a single element driven through a whole call: every element of F is plus or
minus it and C is that divided and rounded. -/
def Obligations.RoundingCasesThroughTheCall : Prop :=
  ((rdiv16 8).toInt = 1 ∧ (rdiv16 (-8)).toInt = -1 ∧ (rdiv16 9).toInt = 1 ∧ (rdiv16 (-9)).toInt = -1 ∧
    (rdiv16 20).toInt = 1 ∧ (rdiv16 (-20)).toInt = -1 ∧ (rdiv16 28).toInt = 2 ∧ (rdiv16 (-28)).toInt = -2) ∧
  (∀ (a b : Fin 4) (v : Word) (i j : Fin 4),
    ((stage3 (impulse a b v) zeroMat).elem i j = v ∨ (stage3 (impulse a b v) zeroMat).elem i j = -v) ∧
    (transform (impulse a b v) zeroMat).elem i j =
      rdiv16 (wrap16 (Config.hadamard i a * Config.hadamard b j * v.toInt)))

/-- R117: outside the precondition the result is the wrapped product divided. At an element whose exact F does not fit,
the stored F is off by a multiple of 65536 that is not zero, the delivered C by that multiple of 4096 to within one, and
it is never the right value; at an element whose exact F fits, it is. Some exact F does not fit whenever the precondition
fails. This is the hardware of this spec; of the original software outside the precondition nothing is claimed (log
entry 11). -/
def Obligations.OverflowGivesTheWrappedResult : Prop :=
  ∀ R P : Mat,
    (∀ i j, (transform R P).elem i j = rdiv16 (wrap16 (exactF R P i j))) ∧
    (∀ i j, ¬Fits (exactF R P i j) → ∃ m : Int, m ≠ 0 ∧
      (stage3 R P).vals i j = exactF R P i j - 65536 * m ∧
      |(transform R P).vals i j - (rhafz ((exactF R P i j : ℚ) / 16) - 4096 * m)| ≤ 1 ∧
      (transform R P).vals i j ≠ rhafz ((exactF R P i j : ℚ) / 16)) ∧
    (∀ i j, Fits (exactF R P i j) → (transform R P).vals i j = rhafz ((exactF R P i j : ℚ) / 16)) ∧
    (¬InRange R P → ∃ i j, ¬Fits (exactF R P i j))

/-- R118: stages 1 to 3 are linear modulo 2^16 in the wrapped difference of the operands; the transform is not. -/
def Obligations.StagesOneToThreeAreLinear : Prop :=
  (∀ R P R' P' : Mat, (∀ i j, wrap16 (exactD R P i j) = wrap16 (exactD R' P' i j)) → stage3 R P = stage3 R' P') ∧
  (∀ (R P : Mat) (i j : Fin 4), (stage3 R P).elem i j = -(stage3 P R).elem i j) ∧
  (∀ R P R' P' K : Mat, (∀ i j, R'.vals i j = R.vals i j + K.vals i j) →
    (∀ i j, P'.vals i j = P.vals i j + K.vals i j) →
    stage3 R' P' = stage3 R P ∧ transform R' P' = transform R P) ∧
  (∀ R1 P1 R2 P2 R P : Mat, (∀ i j, R.vals i j = R1.vals i j + R2.vals i j) →
    (∀ i j, P.vals i j = P1.vals i j + P2.vals i j) →
    ∀ i j, (stage3 R P).elem i j = wrap16 ((stage3 R1 P1).vals i j + (stage3 R2 P2).vals i j)) ∧
  (∃ R1 R2 R : Mat, (∀ i j, R.vals i j = R1.vals i j + R2.vals i j) ∧ ∃ i j,
    (transform R zeroMat).vals i j ≠ (transform R1 zeroMat).vals i j + (transform R2 zeroMat).vals i j)

/-- R119: a basis function of amplitude `m` gives `m` at its own position and zero everywhere else. -/
def Obligations.BasisFunctionGivesOneCoefficient : Prop :=
  ∀ (a b : Fin 4) (m : Int), |m| ≤ 2047 → ∀ i j,
    (transform (basisMat a b m) zeroMat).vals i j = if i = a ∧ j = b then m else 0
end

