-- ==== Sys2Proof/Laws/Operands.lean ====
section
/-! SUPPORT. Lemmas on indexing, the 16-bit wrap and the bus fields. -/

namespace Sys2Proof

variable {α β : Type}

@[simp] theorem Vec4.get_ofFn (f : Fin 4 → α) (k : Fin 4) : (Vec4.ofFn f).get k = f k := by
  fin_cases k <;> rfl

@[simp] theorem Vec4.get_map (f : α → β) (x : Vec4 α) (k : Fin 4) : (x.map f).get k = f (x.get k) := by
  fin_cases k <;> rfl

/-- Equal elements, equal vectors. -/
theorem Vec4.ext_get {x y : Vec4 α} (h : ∀ k, x.get k = y.get k) : x = y := by
  have h0 := h 0
  have h1 := h 1
  have h2 := h 2
  have h3 := h 3
  cases x; cases y
  simp_all [Vec4.get]

@[simp] theorem Mat.elem_ofFn (f : Fin 4 → Fin 4 → Word) (i j : Fin 4) : (Mat.ofFn f).elem i j = f i j := by
  simp [Mat.elem, Mat.ofFn]

@[simp] theorem Mat.elem_transpose (M : Mat) (i j : Fin 4) : M.transpose.elem i j = M.elem j i := by
  simp [Mat.transpose]

/-- Equal elements, equal matrices. -/
theorem Mat.ext_elem {M N : Mat} (h : ∀ i j, M.elem i j = N.elem i j) : M = N :=
  Vec4.ext_get fun i => Vec4.ext_get fun j => h i j

@[simp] theorem elem_unpack (b : Bus) (i j : Fin 4) : (unpack b).elem i j = b.elem i j := by
  simp [unpack]

/-- The wrap is the 16-bit pattern of the integer: reducing first changes nothing. -/
theorem wrap16_eq_ofInt (v : Int) : wrap16 v = BitVec.ofInt 16 v := by
  apply BitVec.eq_of_toInt_eq
  simp only [wrap16, enc16, BitVec.toInt_ofInt]
  norm_num [Int.bmod]

/-- The wrap is a ring map from the integers: it commutes with addition. -/
theorem wrap16_add (u v : Int) : wrap16 (u + v) = wrap16 u + wrap16 v := by
  simp only [wrap16_eq_ofInt, BitVec.ofInt_add]

/-- It commutes with subtraction. -/
theorem wrap16_sub (u v : Int) : wrap16 (u - v) = wrap16 u - wrap16 v := by
  rw [wrap16_eq_ofInt, wrap16_eq_ofInt, wrap16_eq_ofInt, Int.sub_eq_add_neg, BitVec.ofInt_add, BitVec.ofInt_neg,
    BitVec.sub_eq_add_neg]

/-- The pattern of an element's own value is the element. -/
@[simp] theorem wrap16_toInt (w : Word) : wrap16 w.toInt = w := by
  rw [wrap16_eq_ofInt, BitVec.ofInt_toInt]

/-- Concatenation as a number: the first operand stands above the second (R6). -/
theorem toNat_append_eq {m n : Nat} (x : BitVec m) (y : BitVec n) :
    (x ++ y).toNat = x.toNat * 2 ^ n + y.toNat := by
  rw [BitVec.toNat_append, ← Nat.shiftLeft_add_eq_or_of_lt y.isLt, Nat.shiftLeft_eq]

/-- A packed row as a number. -/
theorem toNat_packRow (x : Vec4 Word) : (packRow x).toNat =
    x.x3.toNat * 2 ^ 48 + x.x2.toNat * 2 ^ 32 + x.x1.toNat * 2 ^ 16 + x.x0.toNat := by
  have h : packRow x = (x.x3 ++ x.x2 ++ x.x1 ++ x.x0 : BitVec (16 + 16 + 16 + 16)) := rfl
  rw [h]
  simp only [toNat_append_eq]
  omega

/-- A packed matrix as a number. -/
theorem toNat_pack (M : Mat) : (pack M).toNat =
    (packRow M.x3).toNat * 2 ^ 192 + (packRow M.x2).toNat * 2 ^ 128 + (packRow M.x1).toNat * 2 ^ 64 +
      (packRow M.x0).toNat := by
  have h : pack M =
      (packRow M.x3 ++ packRow M.x2 ++ packRow M.x1 ++ packRow M.x0 : BitVec (64 + 64 + 64 + 64)) := rfl
  rw [h]
  simp only [toNat_append_eq]
  omega

end Sys2Proof
end

