-- ==== Sys2Proof/Laws/Arith.lean ====
section
/-! SUPPORT. Lemmas on the arithmetic: the adders as 16-bit words, the elements of the four matrix functions, truncating
division as the library's. -/

namespace Sys2Proof

/-- The wrapped sum is 16-bit addition with the carry discarded. -/
@[simp] theorem add16_eq (a b : Word) : add16 a b = a + b := by
  simp [add16, wrap16_add]

/-- The wrapped difference is 16-bit subtraction. -/
@[simp] theorem sub16_eq (a b : Word) : sub16 a b = a - b := by
  simp [sub16, wrap16_sub]

/-- The butterfly on 16-bit words, partial sums written out. -/
theorem bfly4_eq (x : Vec4 Word) :
    bfly4 x = ⟨(x.x0 + x.x1) + (x.x2 + x.x3), (x.x0 + x.x1) - (x.x2 + x.x3),
      (x.x0 - x.x1) - (x.x2 - x.x3), (x.x0 - x.x1) + (x.x2 - x.x3)⟩ := by
  simp [bfly4]

@[simp] theorem elem_diffM (R P : Mat) (i j : Fin 4) : (diffM R P).elem i j = R.elem i j - P.elem i j := by
  simp [diffM]

theorem elem_rowpassM (M : Mat) (i j : Fin 4) : (rowpassM M).elem i j = (bfly4 (M.get i)).get j := by
  simp [rowpassM, Mat.elem]

theorem elem_colpassM (M : Mat) (i j : Fin 4) : (colpassM M).elem i j = (bfly4 (M.transpose.get j)).get i := by
  rw [colpassM, Mat.elem_transpose]
  simp [Mat.elem]

@[simp] theorem elem_rdivM (M : Mat) (i j : Fin 4) : (rdivM M).elem i j = rdiv16 (M.elem i j) := by
  simp [rdivM]

/-- Negating the dividend negates the quotient. -/
theorem tdiv_neg_left (a b : Int) : tdiv (-a) b = -tdiv a b := by
  simp only [tdiv, Int.sign_neg, Int.natAbs_neg, Int.neg_mul]

/-- Negating the divisor negates the quotient. -/
theorem tdiv_neg_right (a b : Int) : tdiv a (-b) = -tdiv a b := by
  simp only [tdiv, Int.sign_neg, Int.natAbs_neg, Int.neg_mul, Int.mul_neg]

/-- On natural numbers the quotient is the natural one. -/
theorem tdiv_natCast (m n : Nat) : tdiv m n = ((m / n : Nat) : Int) := by
  rcases Nat.eq_zero_or_pos m with rfl | hm
  · simp [tdiv]
  rcases Nat.eq_zero_or_pos n with rfl | hn
  · simp [tdiv]
  simp only [tdiv, Int.natAbs_natCast, Int.sign_natCast_of_ne_zero hm.ne', Int.sign_natCast_of_ne_zero hn.ne', Int.one_mul]

/-- R8's truncating division is the library's. -/
theorem tdiv_eq (a b : Int) : tdiv a b = Int.tdiv a b := by
  obtain ⟨m, rfl | rfl⟩ := a.eq_nat_or_neg <;> obtain ⟨n, rfl | rfl⟩ := b.eq_nat_or_neg <;>
    simp only [tdiv_neg_left, tdiv_neg_right, tdiv_natCast, Int.neg_tdiv, Int.tdiv_neg, Int.ofNat_tdiv]

/-- Truncating division by floor division: floor for a dividend that is not negative, the mirror image for one that is. -/
theorem tdiv_eq_floor (a b : Int) : tdiv a b = if 0 ≤ a then a / b else -(-a / b) := by
  rw [tdiv_eq]
  split
  · next h => exact Int.tdiv_eq_ediv_of_nonneg h
  · next h => rw [← Int.tdiv_eq_ediv_of_nonneg (by omega), Int.neg_tdiv, Int.neg_neg]

/-- `RDIV16` as one floor division of the magnitude plus a half (R102), with the sign restored. -/
theorem toInt_rdiv16 (v : Word) :
    (rdiv16 v).toInt = if 0 ≤ v.toInt then (v.toInt + 8) / 16 else -((-v.toInt + 8) / 16) := by
  have hlo := BitVec.le_toInt v
  have hhi := BitVec.toInt_lt (x := v)
  norm_num at hlo hhi
  have key : tdiv v.toInt 16 + tdiv (v.toInt - 16 * tdiv v.toInt 16) 8 =
      if 0 ≤ v.toInt then (v.toInt + 8) / 16 else -((-v.toInt + 8) / 16) := by
    rw [tdiv_eq_floor, tdiv_eq_floor]
    split <;> split <;> omega
  simp only [rdiv16, enc16, Config.divisor, Config.half, key, BitVec.toInt_ofInt]
  split <;> (rw [Int.bmod_eq_of_le] <;> norm_num <;> omega)

end Sys2Proof
end

