-- ==== Sys2Proof/Laws/Hadamard.lean ====
section
/-! SUPPORT. The matrix A (`00_scope.md` R5), and the wrap as a ring map on products. -/

namespace Sys2Proof

/-- The entries of A are ±1. -/
theorem hadamard_entry (i j : Fin 4) : Config.hadamard i j = 1 ∨ Config.hadamard i j = -1 := by
  revert i j; decide

/-- A is symmetric. -/
theorem hadamard_symm (i j : Fin 4) : Config.hadamard i j = Config.hadamard j i := by
  revert i j; decide

/-- `A·A = 4·I`. -/
theorem hadamard_mul_self (i j : Fin 4) :
    IntMat.mul Config.hadamard Config.hadamard i j = if i = j then 4 else 0 := by
  revert i j; decide

/-- The wrap commutes with multiplication. -/
theorem wrap16_mul (u v : Int) : wrap16 (u * v) = wrap16 u * wrap16 v := by
  simp only [wrap16_eq_ofInt, BitVec.ofInt_mul]

@[simp] theorem wrap16_one : wrap16 1 = 1 := by decide

@[simp] theorem wrap16_neg_one : wrap16 (-1) = -1 := by decide

end Sys2Proof
end

