-- ==== Sys2Proof/Laws/PerInstr.lean ====
section
/-! SUPPORT. The family Encoding, one lemma per constructor: an operation is well formed, its code word fits its format,
and decoding the word gives the operation back (`30_encoding.md` R56, R57). -/

namespace Sys2Proof

/-- What is said of each operation. -/
def Laws.Encoding.Statement (i : Instr) : Prop :=
  i.wellFormed = true ∧ (encode i).1.wordOk (encode i).2 = true ∧ decode (encode i).1 (encode i).2 = .ok i

theorem Laws.Encoding.start : Laws.Encoding.Statement .start := ⟨rfl, rfl, rfl⟩

theorem Laws.Encoding.diff : Laws.Encoding.Statement .diff := ⟨rfl, rfl, rfl⟩

theorem Laws.Encoding.rowpass : Laws.Encoding.Statement .rowpass := ⟨rfl, rfl, rfl⟩

theorem Laws.Encoding.colpass : Laws.Encoding.Statement .colpass := ⟨rfl, rfl, rfl⟩

theorem Laws.Encoding.rdiv : Laws.Encoding.Statement .rdiv := ⟨rfl, rfl, rfl⟩

end Sys2Proof
end

