-- ==== Sys2Proof/Laws/State.lean ====
section
/-! SUPPORT. What each field of the state is after each named operation, one lemma per field per operation. -/

namespace Sys2Proof.Machine

variable (s : State) (R P M : Mat) (p : Pins)

/-! beginCall -/

@[simp] theorem State.beginCall_rq : (s.beginCall).rq = s.rq := rfl
@[simp] theorem State.beginCall_pq : (s.beginCall).pq = s.pq := rfl
@[simp] theorem State.beginCall_w : (s.beginCall).w = s.w := rfl
@[simp] theorem State.beginCall_c : (s.beginCall).c = s.c := rfl
@[simp] theorem State.beginCall_stg : (s.beginCall).stg = 0 := rfl
@[simp] theorem State.beginCall_busy : (s.beginCall).busy = true := rfl
@[simp] theorem State.beginCall_done : (s.beginCall).done = false := rfl
@[simp] theorem State.beginCall_pins : (s.beginCall).pins = s.pins := rfl
@[simp] theorem State.beginCall_draws : (s.beginCall).draws = s.draws := rfl

/-! endCall -/

@[simp] theorem State.endCall_rq : (s.endCall).rq = s.rq := rfl
@[simp] theorem State.endCall_pq : (s.endCall).pq = s.pq := rfl
@[simp] theorem State.endCall_w : (s.endCall).w = s.w := rfl
@[simp] theorem State.endCall_c : (s.endCall).c = s.c := rfl
@[simp] theorem State.endCall_stg : (s.endCall).stg = s.stg := rfl
@[simp] theorem State.endCall_busy : (s.endCall).busy = false := rfl
@[simp] theorem State.endCall_done : (s.endCall).done = true := rfl
@[simp] theorem State.endCall_pins : (s.endCall).pins = s.pins := rfl
@[simp] theorem State.endCall_draws : (s.endCall).draws = s.draws := rfl

/-! advanceStg -/

@[simp] theorem State.advanceStg_rq : (s.advanceStg).rq = s.rq := rfl
@[simp] theorem State.advanceStg_pq : (s.advanceStg).pq = s.pq := rfl
@[simp] theorem State.advanceStg_w : (s.advanceStg).w = s.w := rfl
@[simp] theorem State.advanceStg_c : (s.advanceStg).c = s.c := rfl
@[simp] theorem State.advanceStg_stg : (s.advanceStg).stg = s.stg + 1 := rfl
@[simp] theorem State.advanceStg_busy : (s.advanceStg).busy = s.busy := rfl
@[simp] theorem State.advanceStg_done : (s.advanceStg).done = s.done := rfl
@[simp] theorem State.advanceStg_pins : (s.advanceStg).pins = s.pins := rfl
@[simp] theorem State.advanceStg_draws : (s.advanceStg).draws = s.draws := rfl

/-! loadOperands -/

@[simp] theorem State.loadOperands_rq : (s.loadOperands R P).rq = R := rfl
@[simp] theorem State.loadOperands_pq : (s.loadOperands R P).pq = P := rfl
@[simp] theorem State.loadOperands_w : (s.loadOperands R P).w = s.w := rfl
@[simp] theorem State.loadOperands_c : (s.loadOperands R P).c = s.c := rfl
@[simp] theorem State.loadOperands_stg : (s.loadOperands R P).stg = s.stg := rfl
@[simp] theorem State.loadOperands_busy : (s.loadOperands R P).busy = s.busy := rfl
@[simp] theorem State.loadOperands_done : (s.loadOperands R P).done = s.done := rfl
@[simp] theorem State.loadOperands_pins : (s.loadOperands R P).pins = s.pins := rfl
@[simp] theorem State.loadOperands_draws : (s.loadOperands R P).draws = s.draws := rfl

/-! writeW -/

@[simp] theorem State.writeW_rq : (s.writeW M).rq = s.rq := rfl
@[simp] theorem State.writeW_pq : (s.writeW M).pq = s.pq := rfl
@[simp] theorem State.writeW_w : (s.writeW M).w = M := rfl
@[simp] theorem State.writeW_c : (s.writeW M).c = s.c := rfl
@[simp] theorem State.writeW_stg : (s.writeW M).stg = s.stg := rfl
@[simp] theorem State.writeW_busy : (s.writeW M).busy = s.busy := rfl
@[simp] theorem State.writeW_done : (s.writeW M).done = s.done := rfl
@[simp] theorem State.writeW_pins : (s.writeW M).pins = s.pins := rfl
@[simp] theorem State.writeW_draws : (s.writeW M).draws = s.draws := rfl

/-! writeC -/

@[simp] theorem State.writeC_rq : (s.writeC M).rq = s.rq := rfl
@[simp] theorem State.writeC_pq : (s.writeC M).pq = s.pq := rfl
@[simp] theorem State.writeC_w : (s.writeC M).w = s.w := rfl
@[simp] theorem State.writeC_c : (s.writeC M).c = M := rfl
@[simp] theorem State.writeC_stg : (s.writeC M).stg = s.stg := rfl
@[simp] theorem State.writeC_busy : (s.writeC M).busy = s.busy := rfl
@[simp] theorem State.writeC_done : (s.writeC M).done = s.done := rfl
@[simp] theorem State.writeC_pins : (s.writeC M).pins = s.pins := rfl
@[simp] theorem State.writeC_draws : (s.writeC M).draws = s.draws := rfl

/-! drive -/

@[simp] theorem State.drive_rq : (s.drive p).rq = s.rq := rfl
@[simp] theorem State.drive_pq : (s.drive p).pq = s.pq := rfl
@[simp] theorem State.drive_w : (s.drive p).w = s.w := rfl
@[simp] theorem State.drive_c : (s.drive p).c = s.c := rfl
@[simp] theorem State.drive_stg : (s.drive p).stg = s.stg := rfl
@[simp] theorem State.drive_busy : (s.drive p).busy = s.busy := rfl
@[simp] theorem State.drive_done : (s.drive p).done = s.done := rfl
@[simp] theorem State.drive_pins : (s.drive p).pins = p := rfl
@[simp] theorem State.drive_draws : (s.drive p).draws = s.draws := rfl

/-! draw -/

@[simp] theorem State.draw_rq : (s.draw).rq = s.rq := rfl
@[simp] theorem State.draw_pq : (s.draw).pq = s.pq := rfl
@[simp] theorem State.draw_w : (s.draw).w = s.w := rfl
@[simp] theorem State.draw_c : (s.draw).c = s.c := rfl
@[simp] theorem State.draw_stg : (s.draw).stg = s.stg := rfl
@[simp] theorem State.draw_busy : (s.draw).busy = s.busy := rfl
@[simp] theorem State.draw_done : (s.draw).done = s.done := rfl
@[simp] theorem State.draw_pins : (s.draw).pins = s.pins := rfl
@[simp] theorem State.draw_draws : (s.draw).draws = s.draws + 1 := rfl

/-! acceptStart -/

@[simp] theorem State.acceptStart_rq : (s.acceptStart).rq = unpack s.pins.rIn := rfl
@[simp] theorem State.acceptStart_pq : (s.acceptStart).pq = unpack s.pins.pIn := rfl
@[simp] theorem State.acceptStart_w : (s.acceptStart).w = s.w := rfl
@[simp] theorem State.acceptStart_c : (s.acceptStart).c = s.c := rfl
@[simp] theorem State.acceptStart_stg : (s.acceptStart).stg = 0 := rfl
@[simp] theorem State.acceptStart_busy : (s.acceptStart).busy = true := rfl
@[simp] theorem State.acceptStart_done : (s.acceptStart).done = false := rfl
@[simp] theorem State.acceptStart_pins : (s.acceptStart).pins = s.pins := rfl
@[simp] theorem State.acceptStart_draws : (s.acceptStart).draws = s.draws := rfl

/-! applyReset -/

@[simp] theorem State.applyReset_rq : (s.applyReset).rq = Config.freeMatrix s.draws := rfl
@[simp] theorem State.applyReset_pq : (s.applyReset).pq = Config.freeMatrix (s.draws + 1) := rfl
@[simp] theorem State.applyReset_w : (s.applyReset).w = Config.freeMatrix (s.draws + 2) := rfl
@[simp] theorem State.applyReset_c : (s.applyReset).c = Config.freeMatrix (s.draws + 3) := rfl
@[simp] theorem State.applyReset_stg : (s.applyReset).stg = 0 := rfl
@[simp] theorem State.applyReset_busy : (s.applyReset).busy = false := rfl
@[simp] theorem State.applyReset_done : (s.applyReset).done = false := rfl
@[simp] theorem State.applyReset_pins : (s.applyReset).pins = s.pins := rfl
@[simp] theorem State.applyReset_draws : (s.applyReset).draws = s.draws + 4 := rfl

/-- Two states with the same nine fields are the same state. -/
theorem State.ext_fields {s t : State} (hrq : s.rq = t.rq) (hpq : s.pq = t.pq) (hw : s.w = t.w) (hc : s.c = t.c)
    (hstg : s.stg = t.stg) (hbusy : s.busy = t.busy) (hdone : s.done = t.done) (hpins : s.pins = t.pins)
    (hdraws : s.draws = t.draws) : s = t := by
  cases s; cases t; simp_all

end Sys2Proof.Machine
end

