-- ==== Sys2Proof/Laws/Step.lean ====
section
/-! SUPPORT. What the shared operations, the meanings and one step can do, said once each. -/

namespace Sys2Proof.Machine

variable {s t : State}

/-- The stage step in turn: the operation, then the sequencer advances. -/
theorem State.stageStep_in_turn {code : BitVec 2} (op : State → State) (hb : s.busy = true) (hk : s.stg = code) :
    s.stageStep code op = (op s).advanceStg := by
  simp [State.stageStep, hb, hk]

/-- The stage step out of turn: nothing. -/
theorem State.stageStep_out_of_turn {code : BitVec 2} (op : State → State) (h : ¬(s.busy = true ∧ s.stg = code)) :
    s.stageStep code op = s := by
  rw [State.stageStep, if_neg h]

/-- The four values of the sequencer. -/
theorem stg_cases (k : BitVec 2) : k = 0 ∨ k = 1 ∨ k = 2 ∨ k = 3 := by
  revert k; decide

/-- The state after the stage step of a call in flight, stage by stage (R72). -/
def State.afterStage (s : State) : State :=
  if s.stg = 0 then (s.writeW (diffM s.rq s.pq)).advanceStg
  else if s.stg = 1 then (s.writeW (rowpassM s.w)).advanceStg
  else if s.stg = 2 then (s.writeW (colpassM s.w)).advanceStg
  else ((s.writeC (rdivM s.w)).endCall).advanceStg

/-- `rst` asserted: the step is reset. -/
theorem step_of_rst (h : s.pins.rst = true) : step s = .next s.applyReset := by
  simp [step, h]

/-- A call in flight and no reset: the step is the stage step. -/
theorem step_of_busy (hr : s.pins.rst = false) (hb : s.busy = true) : step s = .next s.afterStage := by
  rcases stg_cases s.stg with h | h | h | h <;>
    simp [step, hr, State.fetch, State.codeWord, hb, h, decode, accepted, exec, execDiff, execRowpass, execColpass,
      execRdiv, State.stageStep, State.afterStage]

/-- No call in flight, no reset, a command: the step accepts START. -/
theorem step_of_start (hr : s.pins.rst = false) (hb : s.busy = false) (hs : s.pins.start = true) :
    step s = .next s.acceptStart := by
  simp [step, hr, State.fetch, State.codeWord, hb, hs, decode, accepted, exec, execStart]

/-- No call in flight, no reset, no command: nothing. -/
theorem step_of_idle (hr : s.pins.rst = false) (hb : s.busy = false) (hs : s.pins.start = false) :
    step s = .next s := by
  simp [step, hr, State.fetch, State.codeWord, hb, hs, decode, accepted]

/-- Everything one step can do. -/
theorem step_cases (h : step s = .next t) :
    (s.pins.rst = true ∧ t = s.applyReset) ∨
    (s.pins.rst = false ∧ s.busy = true ∧ t = s.afterStage) ∨
    (s.pins.rst = false ∧ s.busy = false ∧ s.pins.start = true ∧ t = s.acceptStart) ∨
    (s.pins.rst = false ∧ s.busy = false ∧ s.pins.start = false ∧ t = s) := by
  rcases hr : s.pins.rst with _ | _
  · rcases hb : s.busy with _ | _
    · rcases hs : s.pins.start with _ | _
      · rw [step_of_idle hr hb hs] at h; simp_all
      · rw [step_of_start hr hb hs] at h; simp_all
    · rw [step_of_busy hr hb] at h; simp_all
  · rw [step_of_rst hr] at h; simp_all

/-- The next state of a step is the one it answers. -/
theorem State.next?_of_step (h : step s = .next t) : s.next? = some t := by
  simp [State.next?, h]

/-- A run is its first step and then the rest. -/
theorem State.runPins_cons {p : Pins} {ps : List Pins} (h : step (s.drive p) = .next t) :
    s.runPins (p :: ps) = t.runPins ps := by
  simp [State.runPins, State.next?_of_step h]

/-- The empty run. -/
@[simp] theorem State.runPins_nil (s : State) : s.runPins [] = some s := rfl

end Sys2Proof.Machine
end

