-- ==== Sys2Proof/Laws/Script.lean ====
section
/-! SUPPORT. What waiting does, one lemma per case. -/

namespace Sys2Proof.Machine

variable {s : State}

/-- Waiting ends as soon as `done = 1`. -/
theorem State.awaitDone_of_done (k : Nat) (h : s.done = true) : s.awaitDone k = some s := by
  cases k <;> simp [State.awaitDone, h]

/-- Waiting on a call in flight performs a stage step and goes on waiting. -/
theorem State.awaitDone_of_busy (k : Nat) (hr : s.pins.rst = false) (hb : s.busy = true) (hd : s.done = false) :
    s.awaitDone (k + 1) = s.afterStage.awaitDone k := by
  simp [State.awaitDone, hd, State.next?_of_step (step_of_busy hr hb)]

/-- Waiting for acceptance ends with the accepting step when no call is in flight. -/
theorem State.awaitAccept_of_idle (k : Nat) (hr : s.pins.rst = false) (hb : s.busy = false)
    (hs : s.pins.start = true) : s.awaitAccept (k + 1) = some s.acceptStart := by
  simp [State.awaitAccept, hb, State.next?_of_step (step_of_start hr hb hs)]

/-- Waiting for acceptance lets a call in flight perform a stage step. -/
theorem State.awaitAccept_of_busy (k : Nat) (hr : s.pins.rst = false) (hb : s.busy = true) :
    s.awaitAccept (k + 1) = s.afterStage.awaitAccept k := by
  simp [State.awaitAccept, hb, State.next?_of_step (step_of_busy hr hb)]

end Sys2Proof.Machine
end

