-- ==== Sys2Proof/Tests/Slice0.lean ====
section
/-! SUPPORT. Small checks of the model against the spec's own examples and tables, and for each statement with
hypotheses a concrete state and operands that meet them together. -/

namespace Sys2Proof.Tests

open Sys2Proof.Machine

/-! ### Helpers: small states -/

/-- All elements equal. -/
def constMat (v : Word) : Mat := Mat.ofFn fun _ _ => v

/-- Pins with `rst` released and the buses 0. -/
def quiet (start : Bool) : Pins := { rst := false, start := start, rIn := 0, pIn := 0 }

/-- Pins with `rst` asserted. -/
def resetting : Pins := { rst := true, start := true, rIn := 0, pIn := 0 }

/-- No call in flight. -/
def idle (done : Bool) (p : Pins) : State :=
  { rq := zeroMat, pq := zeroMat, w := zeroMat, c := zeroMat, stg := 0, busy := false, done := done, pins := p,
    draws := 0 }

/-- A call in flight with stage `k` next. -/
def running (k : BitVec 2) (R P M : Mat) (p : Pins) : State :=
  { rq := R, pq := P, w := M, c := zeroMat, stg := k, busy := true, done := false, pins := p, draws := 0 }

/-- The state an outcome answers, looked at by `f`. -/
def look {α : Type} (f : State → α) : Host.Outcome State Fault Refusal → Option α
  | .next t => some (f t)
  | .fault _ => none
  | .refused _ => none

/-! ### The golden vector (`95_test_vectors.md` section 1.3) -/

def goldenP : Mat := matOf ⟨1, 21, 34, 4⟩ ⟨5, 6, 71, 8⟩ ⟨91, 10, 11, 12⟩ ⟨13, 14, 15, 161⟩
def goldenD : Mat := matOf ⟨16, -3, 157, 16⟩ ⟨16, 16, 160, 16⟩ ⟨160, 16, 16, 16⟩ ⟨16, 287, 16, -129⟩
def goldenE : Mat := matOf ⟨186, -160, -122, 160⟩ ⟨208, -144, -144, 144⟩ ⟨208, 144, 144, 144⟩ ⟨190, 416, -416, -126⟩
def goldenF : Mat := matOf ⟨792, 256, -538, 322⟩ ⟨-4, -864, 6, 286⟩ ⟨-40, 256, -538, -254⟩ ⟨-4, -288, 582, 286⟩
def goldenC : Mat := matOf ⟨50, 16, -34, 20⟩ ⟨0, -54, 0, 18⟩ ⟨-3, 16, -34, -16⟩ ⟨0, -18, 36, 18⟩

/-- The levels of the golden command, the bus values of section 1.3. -/
def goldenPins : Pins where
  rst := false
  start := true
  rIn := 0x0020001f012d001d001c001b001a00fb001800e700160015001400bf00120011#256
  pIn := 0x00a1000f000e000d000c000b000a005b00080047000600050004002200150001#256

/-! ### Well-formedness and decoding (`30_encoding.md` R56, R57, R59) -/

/-- A CMD word has one bit, an STG word two. -/
theorem test_ill_formed_words_refused :
    Format.wordOk .cmd 2 = false ∧ Format.wordOk .stg 4 = false ∧ decode .cmd 2 = .error .tooWide ∧
    decode .stg 4 = .error .tooWide := by decide

theorem test_well_formed : Format.wordOk .cmd 1 = true ∧ Format.wordOk .stg 3 = true ∧
    Instr.wellFormed .start = true := by decide

theorem test_decode_start : decode .cmd 0b1 = .ok .start := by decide
theorem test_decode_diff : decode .stg 0b00 = .ok .diff := by decide
theorem test_decode_rowpass : decode .stg 0b01 = .ok .rowpass := by decide
theorem test_decode_colpass : decode .stg 0b10 = .ok .colpass := by decide
theorem test_decode_rdiv : decode .stg 0b11 = .ok .rdiv := by decide
theorem test_decode_no_command : decode .cmd 0b0 = .error .noCommand := by decide

theorem test_table_words : decodeTableWord 1 1 = some .start ∧ decodeTableWord 2 0 = some .diff ∧
    decodeTableWord 2 1 = some .rowpass ∧ decodeTableWord 2 2 = some .colpass ∧ decodeTableWord 2 3 = some .rdiv := by
  decide

/-- A placed word is the first operation after reset, for the five table words. -/
theorem test_placed_after_reset :
    (State.reset.withFetchWord 1 1).fetch = some .start ∧ (State.reset.withFetchWord 2 0).fetch = some .diff ∧
    (State.reset.withFetchWord 2 1).fetch = some .rowpass ∧ (State.reset.withFetchWord 2 2).fetch = some .colpass ∧
    (State.reset.withFetchWord 2 3).fetch = some .rdiv := by decide

/-- Each of the five runs as the first step after reset. -/
theorem test_first_step_after_reset :
    look (fun t => (t.busy, t.stg)) (step (State.reset.withFetchWord 1 1)) = some (true, 0) ∧
    look (fun t => (t.busy, t.stg)) (step (State.reset.withFetchWord 2 0)) = some (true, 1) ∧
    look (fun t => (t.busy, t.stg)) (step (State.reset.withFetchWord 2 1)) = some (true, 2) ∧
    look (fun t => (t.busy, t.stg)) (step (State.reset.withFetchWord 2 2)) = some (true, 3) ∧
    look (fun t => (t.busy, t.stg, t.done)) (step (State.reset.withFetchWord 2 3)) = some (false, 0, true) := by decide

/-! ### One step of each operation -/

/-- R71's example. -/
theorem test_start_golden :
    look (fun t => (t.rq, t.pq, t.stg, t.busy, t.done)) (exec .start (idle true goldenPins)) =
      some (goldenR, goldenP, 0, true, false) := by decide

/-- P5 line 5: START while a call is in flight. -/
theorem test_start_while_busy :
    look (fun t => decide (t = running 1 goldenR goldenP goldenD goldenPins))
      (exec .start (running 1 goldenR goldenP goldenD goldenPins)) = some true := by decide

theorem test_diff_golden :
    look (fun t => (t.w, t.stg)) (step (running 0 goldenR goldenP zeroMat (quiet false))) = some (goldenD, 1) := by decide +kernel

/-- Section 2.1: 32767 − (−1) is stored as −32768, −32768 − 32767 as 1. -/
theorem test_diff_wraps :
    look (fun t => (t.w.vals 0 0, t.w.vals 3 3))
      (exec .diff (running 0 (matOf ⟨32767, 0, 0, 0⟩ ⟨0, 0, 0, 0⟩ ⟨0, 0, 0, 0⟩ ⟨0, 0, 0, -32768⟩)
        (matOf ⟨-1, 0, 0, 0⟩ ⟨0, 0, 0, 0⟩ ⟨0, 0, 0, 0⟩ ⟨0, 0, 0, 32767⟩) zeroMat (quiet false))) =
      some (-32768, 1) := by decide

theorem test_rowpass_golden :
    look (fun t => (t.w, t.stg)) (step (running 1 goldenR goldenP goldenD (quiet false))) = some (goldenE, 2) := by decide +kernel

/-- Section 2.3, X: the butterfly runs along the row. -/
theorem test_rowpass_index :
    look (fun t => t.w) (exec .rowpass (running 1 zeroMat zeroMat
      (matOf ⟨1, 2, 3, 4⟩ ⟨0, 0, 0, 0⟩ ⟨0, 0, 0, 0⟩ ⟨0, 0, 0, 0⟩) (quiet false))) =
      some (matOf ⟨10, -4, 0, -2⟩ ⟨0, 0, 0, 0⟩ ⟨0, 0, 0, 0⟩ ⟨0, 0, 0, 0⟩) := by decide +kernel

theorem test_colpass_golden :
    look (fun t => (t.w, t.stg)) (step (running 2 goldenR goldenP goldenE (quiet false))) = some (goldenF, 3) := by decide +kernel

/-- Section 2.3, Y: the butterfly runs down the column. -/
theorem test_colpass_index :
    look (fun t => t.w) (exec .colpass (running 2 zeroMat zeroMat
      (matOf ⟨0, 0, 0, 0⟩ ⟨5, 0, 0, 0⟩ ⟨0, 0, 0, 0⟩ ⟨0, 0, 0, 0⟩) (quiet false))) =
      some (matOf ⟨5, 0, 0, 0⟩ ⟨5, 0, 0, 0⟩ ⟨-5, 0, 0, 0⟩ ⟨-5, 0, 0, 0⟩) := by decide +kernel

theorem test_rdiv_golden :
    look (fun t => (t.c, t.w, t.stg, t.busy, t.done)) (step (running 3 goldenR goldenP goldenF (quiet false))) =
      some (goldenC, goldenF, 0, false, true) := by decide +kernel

/-- Section 2.4: ties and extremes. -/
theorem test_rdiv_ties :
    look (fun t => t.c) (exec .rdiv (running 3 zeroMat zeroMat
      (matOf ⟨8, -8, 7, -7⟩ ⟨24, -24, -40, -41⟩ ⟨32760, 32767, 32759, -32759⟩ ⟨-32760, -32768, 15, -1⟩) (quiet false))) =
      some (matOf ⟨1, -1, 0, 0⟩ ⟨2, -2, -3, -3⟩ ⟨2048, 2048, 2047, -2047⟩ ⟨-2048, -2048, 1, 0⟩) := by decide +kernel

/-! ### The primitives, reset and the ports -/

/-- Section 2.2: the swap test of `y2` and `y3`, a wrapping row and a wrapping temporary. -/
theorem test_bfly4 :
    bfly4 ⟨0, 0, 1, 0⟩ = ⟨1, -1, -1, 1⟩ ∧ bfly4 ⟨0, 0, 0, 1⟩ = ⟨1, -1, 1, -1⟩ ∧
    bfly4 ⟨8192, 8192, 8192, 8192⟩ = ⟨-32768, 0, 0, 0⟩ ∧
    bfly4 ⟨32767, -32768, 0, 0⟩ = ⟨-1, -1, -1, -1⟩ := by decide

/-- Sections 1.3 and 2.5: the golden call and V-ovf-1. -/
theorem test_transform : transform goldenR goldenP = goldenC ∧
    transform (constMat 2048) zeroMat = impulse 0 0 (-2048) := by decide

/-- Section 1.3, the result bus; P5 line 2 gives no value, so nothing is tested there. -/
theorem test_c_out : ({ idle true (quiet false) with c := goldenC } : State).cOut =
    0x00120024ffee0000fff0ffde0010fffd00120000ffca00000014ffde00100032#256 := by decide

/-- P5 line 13: reset in flight, a START presented with it. -/
theorem test_reset_in_flight :
    look (fun t => (t.busy, t.done, t.stg)) (step (running 2 zeroMat zeroMat zeroMat resetting)) =
      some (false, false, 0) := by decide

/-- R8's examples with a remainder of either sign. -/
theorem test_tdiv : tdiv (-40) 16 = -2 ∧ trem (-40) 16 = -8 ∧ tdiv 792 16 = 49 ∧ trem 792 16 = 8 := by decide

/-! ### Witnesses: states and operands that meet a statement's hypotheses together, each clause at a boundary -/

/-- No command and no reset. -/
abbrev calm : Pins := quiet false

theorem witness_WrapIsReductionModulo65536 : Fits 32767 ∧ Fits (-32768) ∧ ¬Fits 32768 := by decide

theorem witness_TruncatingDivisionAndRemainder : (16 : Int) ≠ 0 ∧ (-1 : Int) ≠ 0 := by decide

theorem witness_ElementsAreTwosComplement : Fits (-32768) ∧ Fits 32767 := by decide

/-- The largest equal inputs without a wrap (section 2.2): both hypotheses together. -/
theorem witness_ButterflyIsRowTimesHadamard :
    FirstLayerFits (8191 : Word).toInt (8191 : Word).toInt (8191 : Word).toInt (8191 : Word).toInt ∧
    ∀ j, Fits (rowTimes (fun k => ((⟨8191, 8191, 8191, 8191⟩ : Vec4 Word).get k).toInt) j) := by decide

/-- The three ranges of the remainder at their edges. -/
theorem witness_RoundingDivideByQuotientAndRemainder :
    (-40 : Int) - 16 * tdiv (-40) 16 ≤ -8 ∧ (-7 : Int) ≤ 7 - 16 * tdiv 7 16 ∧ (7 : Int) - 16 * tdiv 7 16 ≤ 7 ∧
    (8 : Int) ≤ 8 - 16 * tdiv 8 16 := by decide

theorem witness_RoundingDivideIsHalfAwayFromZero :
    0 ≤ (0 : Word).toInt ∧ (-1 : Word).toInt < 0 ∧ (-32767 : Word).toInt ≠ -32768 := by decide

/-- Both sides of both equivalences are met and missed. -/
theorem witness_ArithmeticShiftIsNotRoundingDivide :
    (0 ≤ (8 : Word).toInt ∧ 8 ≤ (8 : Word).toInt % 16) ∧ ((-1 : Word).toInt < 0 ∧ 9 ≤ (-1 : Word).toInt % 16) ∧
    ((-8 : Word).toInt < 0 ∧ (-8 : Word).toInt % 16 = 8) := by decide

theorem witness_RoundingDivideRange : (-32768 : Word).toInt = -32768 ∧ 32760 ≤ (32760 : Word).toInt ∧
    32760 ≤ (32767 : Word).toInt ∧ ByteScale (constMat 255) ∧ ByteScale zeroMat := by decide

theorem witness_StartAcceptedWhenIdle : (idle true (quiet true)).busy = false ∧
    (idle false calm).busy = false := by decide

theorem witness_StartNotAcceptedWhileBusy : (running 3 zeroMat zeroMat zeroMat (quiet true)).busy = true ∧
    (running 3 zeroMat zeroMat zeroMat (quiet true)).pins.rst = false := by decide

theorem witness_DiffStoresWrappedDifference :
    (running 0 (constMat 0) (constMat 255) zeroMat calm).busy = true ∧
    (running 0 (constMat 0) (constMat 255) zeroMat calm).stg = 0 ∧
    ByteScale (running 0 (constMat 0) (constMat 255) zeroMat calm).rq ∧
    ByteScale (running 0 (constMat 0) (constMat 255) zeroMat calm).pq := by decide

/-- The bound 8191, a zero row, and a constant row whose fourfold just fits. -/
theorem witness_RowpassMultipliesByHadamard :
    (running 1 zeroMat zeroMat (constMat 8191) calm).busy = true ∧
    (running 1 zeroMat zeroMat (constMat 8191) calm).stg = 1 ∧
    (∀ k, |(constMat 8191).vals 0 k| ≤ 8191) ∧ (∀ k, zeroMat.elem 0 k = 0) ∧
    (∀ k, (constMat (-8192)).vals 0 k = -8192) ∧ Fits (4 * -8192) := by decide

theorem witness_ColpassMultipliesByHadamard :
    (running 2 zeroMat zeroMat (constMat 2047) calm).busy = true ∧
    (running 2 zeroMat zeroMat (constMat 2047) calm).stg = 2 ∧
    (∀ i j, |(constMat 2047).vals i j| ≤ 2047) ∧ (∀ i j, (constMat 2048).vals i j = 2048) := by decide

theorem witness_RdivDeliversRoundedQuotients : (running 3 zeroMat zeroMat goldenF calm).busy = true ∧
    (running 3 zeroMat zeroMat goldenF calm).stg = 3 := by decide

/-- Out of turn in both ways: no call in flight, and another stage next. -/
theorem witness_StageOperationOutOfTurnChangesNothing : encode .diff = (.stg, 0) ∧
    ¬((idle false calm).busy = true ∧ (idle false calm).stg.toNat = 0) ∧
    ¬((running 3 zeroMat zeroMat zeroMat calm).busy = true ∧ (running 3 zeroMat zeroMat zeroMat calm).stg.toNat = 0) := by
  decide

theorem witness_EncodeAndDecodeAgree : decode .cmd 1 = .ok .start ∧ decode .stg 3 = .ok .rdiv := by decide

/-- A stage, a command and no command. -/
theorem witness_StepRunsTheDecodedOperation :
    (running 3 zeroMat zeroMat zeroMat calm).pins.rst = false ∧ (running 3 zeroMat zeroMat zeroMat calm).busy = true ∧
    decode .stg (running 3 zeroMat zeroMat zeroMat calm).stg.toNat = .ok .rdiv ∧ Instr.wellFormed .rdiv = true ∧
    (idle true (quiet true)).pins.rst = false ∧ (idle true (quiet true)).busy = false ∧
    decode .cmd (idle true (quiet true)).pins.start.toNat = .ok .start ∧ Instr.wellFormed .start = true ∧
    decode .cmd (idle true calm).pins.start.toNat = .error .noCommand := by decide

theorem witness_PlacedWordIsTheNextOperation : decodeTableWord 1 1 = some .start ∧
    decodeTableWord 2 3 = some .rdiv ∧ decodeTableWord 8 3 = some .rdiv := by decide

/-- Both edges of the sequencer, an idle engine without a command, and a step that changes W. -/
theorem witness_StageStepIsSequenced :
    (running 0 goldenR goldenP zeroMat calm).pins.rst = false ∧ (running 0 goldenR goldenP zeroMat calm).busy = true ∧
    (running 3 zeroMat zeroMat zeroMat calm).busy = true ∧ (running 3 zeroMat zeroMat zeroMat calm).stg = 3 ∧
    (idle true calm).pins.rst = false ∧ (idle true calm).busy = false ∧ (idle true calm).pins.start = false ∧
    look (fun t => decide (t.w ≠ zeroMat)) (step (running 0 goldenR zeroMat zeroMat calm)) = some true := by decide

theorem witness_ResetThenStageThenStart :
    (running 3 zeroMat zeroMat zeroMat resetting).pins.rst = true ∧
    (running 3 zeroMat zeroMat zeroMat (quiet true)).pins.rst = false ∧
    (running 3 zeroMat zeroMat zeroMat (quiet true)).busy = true ∧
    (running 3 zeroMat zeroMat zeroMat (quiet true)).stg = 3 ∧
    (running 3 zeroMat zeroMat zeroMat (quiet true)).pins.start = true ∧
    (idle true (quiet true)).busy = false ∧ (idle true (quiet true)).fetch = some .start := by decide

/-- Reset held, then released with and without the command pin down. -/
theorem witness_ResetAbandonsTheCall : (running 2 zeroMat zeroMat zeroMat resetting).pins.rst = true ∧
    ∀ p ∈ [resetting, calm], p.rst = true ∨ p.start = false := by decide

theorem witness_ControlBitsStayLegal : (running 3 zeroMat zeroMat zeroMat calm).Legal ∧ (idle true calm).Legal ∧
    look (fun t => decide (t = (idle true calm))) (step (idle true calm)) = some true :=
  ⟨⟨by decide, by decide⟩, ⟨by decide, by decide⟩, by decide⟩

/-- In flight before each stage, and full. -/
theorem witness_RegistersFollowTheCall : (running 3 goldenR goldenP (stage3 goldenR goldenP) calm).Legal ∧
    (running 3 goldenR goldenP (stage3 goldenR goldenP) calm).CallInv ∧
    (idle true calm).Legal ∧ (idle true calm).CallInv := by
  refine ⟨⟨by decide, by decide⟩, ⟨fun _ => ⟨?_, ?_, ?_⟩, by decide⟩, ⟨by decide, by decide⟩, ⟨fun h => absurd h (by decide), fun _ => ?_⟩⟩
  · intro h; exact absurd h (by decide)
  · intro h; exact absurd h (by decide)
  · intro _; rfl
  · decide +kernel

/-- Steps without reset that change each register. -/
theorem witness_RegistersHaveTheirWriters :
    look (fun t => decide (t.rq ≠ zeroMat ∧ t.stg = 0 ∧ t.busy = true ∧ t.done = false)) (step (idle true goldenPins)) =
      some true ∧
    look (fun t => decide (t.c ≠ zeroMat ∧ t.busy = false ∧ t.done = true))
      (step (running 3 zeroMat zeroMat (constMat 8) calm)) = some true := by decide

theorem witness_HostPinsAreNeverWritten :
    look (fun t => t.pins) (step (running 3 zeroMat zeroMat zeroMat goldenPins)) = some goldenPins := by decide

/-- The acceptance, and each of the three ways not to look at the buses. -/
theorem witness_BusesSampledOnlyAtAcceptance :
    ((idle true (quiet true)).pins.rst = false ∧ (idle true (quiet true)).busy = false ∧
      (idle true (quiet true)).pins.start = true) ∧
    (idle true resetting).pins.rst = true ∧ (running 0 zeroMat zeroMat zeroMat (quiet true)).busy = true ∧
    (idle false calm).pins.start = false := by decide

theorem witness_ReadcReturnsTheResult : (idle true calm).done = true := by decide

theorem witness_StageThreeIsTheProductWrappedOnce : (running 0 goldenR goldenP zeroMat calm).busy = true ∧
    (running 0 goldenR goldenP zeroMat calm).stg = 0 ∧ calm.rst = false ∧ (quiet true).rst = false := by decide

theorem witness_CallDeliversTransform : (idle true calm).busy = false ∧ goldenPins.start = true ∧
    goldenPins.rst = false ∧ calm.rst = false ∧ (quiet true).rst = false := by decide

/-- Stages outstanding: fewer steps than them, and exactly as many, at both ends of the sequencer. -/
theorem witness_CallEndsAfterOutstandingStages :
    (running 0 zeroMat zeroMat zeroMat calm).Legal ∧ (running 3 zeroMat zeroMat zeroMat calm).Legal ∧
    (running 0 zeroMat zeroMat zeroMat calm).busy = true ∧ (running 3 zeroMat zeroMat zeroMat calm).busy = true ∧
    (∀ p ∈ [calm, quiet true, calm, calm], p.rst = false) ∧
    [calm, quiet true, calm].length < 4 - (running 0 zeroMat zeroMat zeroMat calm).stg.toNat ∧
    [calm, quiet true, calm, calm].length = 4 - (running 0 zeroMat zeroMat zeroMat calm).stg.toNat ∧
    [calm].length = 4 - (running 3 zeroMat zeroMat zeroMat calm).stg.toNat :=
  ⟨⟨by decide, by decide⟩, ⟨by decide, by decide⟩, by decide, by decide, by decide, by decide, by decide, by decide⟩

/-- Two engines in flight at stage 4 that differ in every leftover. -/
theorem witness_LeftoversAreNeverObserved :
    (running 3 zeroMat zeroMat goldenF calm).Indist
      { running 3 goldenR goldenP goldenF resetting with c := goldenC, draws := 7 } := by
  refine ⟨by decide, by decide, by decide, ?_, ?_, by decide⟩
  · intro _ h; exact absurd h (by decide)
  · intro _ _; rfl

/-- One just reset, the other with a result. -/
theorem witness_HistoryNeverMatters : State.reset.busy = false ∧ (idle true calm).busy = false ∧
    goldenPins.rst = false ∧ goldenPins.start = true := by decide

theorem witness_TransformScriptDeliversTransform : (idle true calm).busy = false ∧ State.reset.busy = false := by decide

/-- Two instances, two steps of the second around one of the first, the highest index included. -/
theorem witness_InterleavingNeverMatters :
    (∀ a ∈ [(1, calm), (0, goldenPins), (1, calm)],
      a.1 < ([idle true calm, running 0 goldenR goldenP zeroMat calm] : Instances).length) ∧
    (Instances.run [idle true calm, running 0 goldenR goldenP zeroMat calm]
      [(1, calm), (0, goldenPins), (1, calm)]).map (fun fs => fs.map fun f => f.stg) = some [0, 2] ∧
    ([idle true calm, running 0 goldenR goldenP zeroMat calm][1]?).map (fun e => e.stg) = some 0 := by decide

/-- The golden operands (R116) and the largest uniform ones (V-ovf-2). -/
theorem witness_InRangeMeansNoWrap : InRange goldenR goldenP ∧ InRange (constMat 2047) zeroMat := by decide +kernel

theorem witness_SufficientConditionsForInRange : ByteScale (constMat 255) ∧ ByteScale zeroMat ∧
    (∀ i j, |exactD (constMat (-2047)) zeroMat i j| ≤ 2047) ∧ (∀ i j, exactD (constMat 2048) zeroMat i j = 2048) ∧
    (∀ i j, Fits (exactF (constMat (-2048)) zeroMat i j)) := by decide +kernel

theorem witness_TransformIsTheRoundedProduct : InRange goldenR goldenP ∧ ByteScale zeroMat ∧
    ByteScale (constMat 255) := by decide +kernel

/-- Section 2.7. -/
theorem witness_RoundTripRecoversCoefficients :
    (∀ i j, (matOf ⟨138, 122, 114, 104⟩ ⟨116, 90, 102, 52⟩ ⟨60, 54, 62, 48⟩ ⟨20, -26, 17, 15⟩).vals i j =
      IntMat.mul Config.hadamard (IntMat.mul (matOf ⟨10, -3, 0, 7⟩ ⟨0, 5, -2, 1⟩ ⟨-8, 0, 4, 0⟩ ⟨3, -1, 0, -6⟩).vals
        Config.hadamard) i j +
      (matOf ⟨128, 120, 110, 100⟩ ⟨90, 80, 70, 60⟩ ⟨50, 40, 30, 20⟩ ⟨10, 0, 5, 15⟩).vals i j) ∧
    (∀ i j, -2048 ≤ (matOf ⟨10, -3, 0, 7⟩ ⟨0, 5, -2, 1⟩ ⟨-8, 0, 4, 0⟩ ⟨3, -1, 0, -6⟩).vals i j ∧
      (matOf ⟨10, -3, 0, 7⟩ ⟨0, 5, -2, 1⟩ ⟨-8, 0, 4, 0⟩ ⟨3, -1, 0, -6⟩).vals i j ≤ 2047) := by decide +kernel

/-- V-ovf-1: one element of F does not fit, the others do. -/
theorem witness_OverflowGivesTheWrappedResult : ¬Fits (exactF (constMat 2048) zeroMat 0 0) ∧
    Fits (exactF (constMat 2048) zeroMat 0 1) ∧ ¬InRange (constMat 2048) zeroMat := by decide +kernel

/-- Operands whose sums are `int16` matrices, and operands with the same wrapped difference that are not the same. -/
theorem witness_StagesOneToThreeAreLinear :
    (∀ i j, (constMat 32767).vals i j = (constMat 32766).vals i j + (constMat 1).vals i j) ∧
    (∀ i j, zeroMat.vals i j = (constMat (-1)).vals i j + (constMat 1).vals i j) ∧
    (∀ i j, wrap16 (exactD (constMat 32767) (constMat (-1)) i j) = wrap16 (exactD (constMat (-32768)) zeroMat i j)) := by
  decide +kernel

theorem witness_BasisFunctionGivesOneCoefficient : |(2047 : Int)| ≤ 2047 ∧ |(-2047 : Int)| ≤ 2047 := by decide

end Sys2Proof.Tests
end

section
/-! PROOFS of `00_scope.md` section 5: the 16-bit wrap (R7), truncating division (R8), rounding half away from zero
(R9). -/

namespace Sys2Proof

/-! ### The wrap (R7) -/

/-- Every element is an `int16`. -/
theorem fits_toInt (x : Word) : Fits x.toInt := by
  have hlo := BitVec.le_toInt x
  have hhi := BitVec.toInt_lt (x := x)
  norm_num at hlo hhi
  omega

/-- The pattern of an `int16` reads back as that value. -/
theorem toInt_enc16_of_fits {v : Int} (h : Fits v) : (enc16 v).toInt = v := by
  rw [enc16, BitVec.toInt_ofInt]
  exact Int.bmod_eq_of_le (by omega) (by omega)

/-- The value of a wrapped integer, by the rule's formula. -/
theorem toInt_wrap16 (v : Int) : (wrap16 v).toInt = (v + 32768) % 65536 - 32768 :=
  toInt_enc16_of_fits (by omega)

/-- The wrap is the identity on `int16`. -/
theorem toInt_wrap16_of_fits {v : Int} (h : Fits v) : (wrap16 v).toInt = v := by
  rw [toInt_wrap16]
  omega

/-! ### Truncating division (R8) -/

/-- The remainder of R8 is the library's. -/
theorem trem_eq (a b : Int) : trem a b = Int.tmod a b := by
  rw [trem, tdiv_eq, Int.tmod_def]

/-- The quotient by R8's formula, the floor taken on the rationals. -/
theorem tdiv_eq_sign_mul_floor (a b : Int) : tdiv a b = a.sign * b.sign * ⌊(|a| : ℚ) / |b|⌋ := by
  have hfloor : ⌊(|a| : ℚ) / |b|⌋ = ((a.natAbs / b.natAbs : Nat) : Int) := by
    rw [← Int.cast_abs, ← Nat.cast_natAbs, ← Nat.cast_natAbs, Rat.floor_natCast_div_natCast, Int.natCast_div]
  rw [tdiv, hfloor]

/-- The remainder is zero or has the sign of the dividend. -/
theorem trem_eq_zero_or_sign_eq (a b : Int) : trem a b = 0 ∨ (trem a b).sign = a.sign := by
  rw [trem_eq]
  by_cases hdvd : b ∣ a
  · exact .inl (Int.tmod_eq_zero_of_dvd hdvd)
  · exact .inr (by rw [Int.sign_tmod, if_neg hdvd])

/-- The remainder is smaller in magnitude than the divisor. -/
theorem abs_trem_lt (a : Int) {b : Int} (hb : b ≠ 0) : |trem a b| < |b| := by
  rw [trem_eq, Int.abs_eq_natAbs, Int.abs_eq_natAbs, Int.natAbs_tmod]
  exact_mod_cast Nat.mod_lt _ (Int.natAbs_pos.mpr hb)

/-! ### Rounding half away from zero (R9) -/

/-- The rounding is odd: negating the argument negates the result. -/
@[simp] theorem rhafz_neg (x : ℚ) : rhafz (-x) = -rhafz x := by
  simp only [rhafz, Rat.neg_num, Int.sign_neg, abs_neg, Int.neg_mul]

/-- On arguments that are not negative it is rounding half up. -/
theorem rhafz_of_nonneg {x : ℚ} (hx : 0 ≤ x) : rhafz x = ⌊x + 1 / 2⌋ := by
  rcases hx.eq_or_lt with rfl | hpos
  · norm_num [rhafz]
  · rw [rhafz, Int.sign_eq_one_of_pos (Rat.num_pos.mpr hpos), one_mul, abs_of_pos hpos]

/-- The result is a nearest integer. -/
theorem abs_rhafz_sub_le (x : ℚ) : |(rhafz x : ℚ) - x| ≤ 1 / 2 := by
  have hnonneg : ∀ y : ℚ, 0 ≤ y → |(rhafz y : ℚ) - y| ≤ 1 / 2 := fun y hy => by
    rw [rhafz_of_nonneg hy, ← round_eq, abs_sub_comm]
    exact abs_sub_round y
  rcases le_total 0 x with hx | hx
  · exact hnonneg x hx
  · have hmirror := hnonneg (-x) (neg_nonneg.mpr hx)
    rwa [rhafz_neg, Int.cast_neg, neg_sub_neg, abs_sub_comm] at hmirror

/-- A tie above zero goes up. -/
theorem rhafz_natCast_add_half (n : ℕ) : rhafz (n + 1 / 2) = n + 1 := by
  rw [rhafz_of_nonneg (by positivity), add_assoc, add_halves]
  exact_mod_cast Int.floor_natCast (n + 1)

/-! ### The statements settled -/

/-- Settles O1, from the wrap's formula: a value in range reads back from its pattern. -/
theorem wrapIsReductionModulo65536 : Obligations.WrapIsReductionModulo65536 :=
  ⟨toInt_wrap16, fun _ => toInt_wrap16_of_fits, fits_toInt⟩

/-- Settles O2, through the library's truncating quotient and remainder. -/
theorem truncatingDivisionAndRemainder : Obligations.TruncatingDivisionAndRemainder :=
  ⟨fun a b hb => ⟨tdiv_eq_sign_mul_floor a b, rfl, trem_eq_zero_or_sign_eq a b, abs_trem_lt a hb⟩, by decide⟩

/-- Settles O3: rounding half up on the arguments that are not negative, mirrored to the others. -/
theorem roundingTiesGoAwayFromZero : Obligations.RoundingTiesGoAwayFromZero := by
  have htie := rhafz_natCast_add_half
  refine ⟨abs_rhafz_sub_le, fun n => ⟨htie n, by rw [rhafz_neg, htie]⟩, ?_, ?_, ?_, ?_⟩
  · simpa using htie 0
  · simpa using htie 0
  · rw [rhafz_of_nonneg (by norm_num)]
    norm_num
  · rw [rhafz_neg, show (5 / 2 : ℚ) = (2 : ℕ) + 1 / 2 by norm_num, htie]
    norm_num

end Sys2Proof
end

section
/-! PROOFS of `10_state.md`: the reachable control bits (R24, R25), what the registers hold in each of them (R22, R28),
who writes which register (R20 to R23), and that leftovers are never observed (R28). -/

namespace Sys2Proof.Machine

variable {s t : State}

/-! ### The stage step, stage by stage -/

/-- Everything the stage step of a call in flight can do, by the stage named in `STG` (R72). -/
theorem State.afterStage_cases (s : State) :
    (s.stg = 0 ∧ s.afterStage = (s.writeW (diffM s.rq s.pq)).advanceStg) ∨
    (s.stg = 1 ∧ s.afterStage = (s.writeW (rowpassM s.w)).advanceStg) ∨
    (s.stg = 2 ∧ s.afterStage = (s.writeW (colpassM s.w)).advanceStg) ∨
    (s.stg = 3 ∧ s.afterStage = ((s.writeC (rdivM s.w)).endCall).advanceStg) := by
  rcases stg_cases s.stg with hk | hk | hk | hk <;> simp [State.afterStage, hk]

@[simp] theorem State.afterStage_rq (s : State) : s.afterStage.rq = s.rq := by
  rcases s.afterStage_cases with ⟨-, h⟩ | ⟨-, h⟩ | ⟨-, h⟩ | ⟨-, h⟩ <;> rw [h] <;> rfl

@[simp] theorem State.afterStage_pq (s : State) : s.afterStage.pq = s.pq := by
  rcases s.afterStage_cases with ⟨-, h⟩ | ⟨-, h⟩ | ⟨-, h⟩ | ⟨-, h⟩ <;> rw [h] <;> rfl

@[simp] theorem State.afterStage_draws (s : State) : s.afterStage.draws = s.draws := by
  rcases s.afterStage_cases with ⟨-, h⟩ | ⟨-, h⟩ | ⟨-, h⟩ | ⟨-, h⟩ <;> rw [h] <;> rfl

/-- Stage 4 leaves the working matrix alone. -/
theorem State.afterStage_w_of_last (hk : s.stg = 3) : s.afterStage.w = s.w := by
  simp [State.afterStage, hk]

/-- Stages 1 to 3 change nothing of the result and the flags. -/
theorem State.afterStage_frame_of_not_last (hk : s.stg ≠ 3) :
    s.afterStage.c = s.c ∧ s.afterStage.busy = s.busy ∧ s.afterStage.done = s.done := by
  rcases s.afterStage_cases with ⟨-, h⟩ | ⟨-, h⟩ | ⟨-, h⟩ | ⟨h3, -⟩
  · simp [h]
  · simp [h]
  · simp [h]
  · exact absurd h3 hk

/-! ### The control bits (R24, R25) -/

/-- EMPTY and FULL are legal. -/
theorem State.legal_of_not_busy (hb : s.busy = false) (hk : s.stg = 0) : s.Legal := by
  simp [State.Legal, hb, hk]

/-- RUN(k) is legal. -/
theorem State.legal_of_run (hb : s.busy = true) (hd : s.done = false) : s.Legal := by
  simp [State.Legal, hb, hd]

/-- In a legal state with a call in flight no result is shown. -/
theorem State.Legal.done_of_busy (h : s.Legal) (hb : s.busy = true) : s.done = false := by
  simpa [hb] using h.1

/-- The stage step goes from RUN(k) to RUN(k + 1), the last one to FULL. -/
theorem State.Legal.afterStage (h : s.Legal) (hb : s.busy = true) : s.afterStage.Legal := by
  by_cases hk : s.stg = 3
  · exact State.legal_of_not_busy (by simp [State.afterStage, hk]) (by simp [State.afterStage, hk])
  · obtain ⟨-, hbusy, hdone⟩ := State.afterStage_frame_of_not_last hk
    exact State.legal_of_run (hbusy.trans hb) (hdone.trans (h.done_of_busy hb))

/-- One step keeps the control bits legal. -/
theorem State.Legal.of_step (h : s.Legal) (hstep : step s = .next t) : t.Legal := by
  rcases step_cases hstep with ⟨-, rfl⟩ | ⟨-, hb, rfl⟩ | ⟨-, -, -, rfl⟩ | ⟨-, -, -, rfl⟩
  · exact State.legal_of_not_busy rfl rfl
  · exact h.afterStage hb
  · exact State.legal_of_run rfl rfl
  · exact h

/-! ### What the registers hold (R22, R28) -/

@[simp] theorem holdsBeforeStage_zero (R P M : Mat) : HoldsBeforeStage R P M 0#2 := by
  simp [HoldsBeforeStage]

@[simp] theorem holdsBeforeStage_one (R P M : Mat) : HoldsBeforeStage R P M 1#2 ↔ M = diffM R P := by
  simp [HoldsBeforeStage]

@[simp] theorem holdsBeforeStage_two (R P M : Mat) : HoldsBeforeStage R P M 2#2 ↔ M = rowpassM (diffM R P) := by
  simp [HoldsBeforeStage]

@[simp] theorem holdsBeforeStage_three (R P M : Mat) : HoldsBeforeStage R P M 3#2 ↔ M = stage3 R P := by
  simp [HoldsBeforeStage]

/-- In EMPTY the registers may hold anything. -/
theorem State.callInv_of_empty (hb : s.busy = false) (hd : s.done = false) : s.CallInv := by
  simp [State.CallInv, hb, hd]

/-- In RUN(k) the invariant is about `W` alone. -/
theorem State.callInv_of_run (hd : s.done = false) (hw : HoldsBeforeStage s.rq s.pq s.w s.stg) : s.CallInv := by
  simp [State.CallInv, hd, hw]

/-- In FULL it is about the result and the stage-3 result it was made from. -/
theorem State.callInv_of_full (hb : s.busy = false) (hw : s.w = stage3 s.rq s.pq)
    (hc : s.c = transform s.rq s.pq) : s.CallInv := by
  simp [State.CallInv, hb, hw, hc]

/-- The stage step takes `W` from one intermediate result to the next, and the last one divides it into `C`. -/
theorem State.CallInv.afterStage (h : s.CallInv) (hb : s.busy = true) (hd : s.done = false) :
    s.afterStage.CallInv := by
  have hw := h.1 hb
  rcases s.afterStage_cases with ⟨hk, ht⟩ | ⟨hk, ht⟩ | ⟨hk, ht⟩ | ⟨hk, ht⟩ <;> rw [hk] at hw <;> rw [ht]
  · exact State.callInv_of_run hd (by simp [hk])
  · have hw' := (holdsBeforeStage_one _ _ _).mp hw
    exact State.callInv_of_run hd (by simp [hk, hw'])
  · have hw' := (holdsBeforeStage_two _ _ _).mp hw
    exact State.callInv_of_run hd (by simp [hk, hw', stage3])
  · have hw' := (holdsBeforeStage_three _ _ _).mp hw
    exact State.callInv_of_full rfl hw' (by simp [hw', transform])

/-- One step keeps the registers in agreement with the control bits. -/
theorem State.CallInv.of_step (h : s.CallInv) (hl : s.Legal) (hstep : step s = .next t) : t.CallInv := by
  rcases step_cases hstep with ⟨-, rfl⟩ | ⟨-, hb, rfl⟩ | ⟨-, -, -, rfl⟩ | ⟨-, -, -, rfl⟩
  · exact State.callInv_of_empty rfl rfl
  · exact h.afterStage hb (hl.done_of_busy hb)
  · exact State.callInv_of_run rfl (holdsBeforeStage_zero _ _ _)
  · exact h

/-! ### Leftovers (R28) -/

/-- Indistinguishable engines agree on whether a call is in flight. -/
theorem State.Indist.busy_eq (h : s.Indist t) : s.busy = t.busy := h.2.1

/-- They agree on whether a result is shown. -/
theorem State.Indist.done_eq (h : s.Indist t) : s.done = t.done := h.2.2.1

/-- The pins are no part of the agreement. -/
theorem State.Indist.drive (h : s.Indist t) (p : Pins) : (s.drive p).Indist (t.drive p) := h

/-- Two engines in EMPTY have nothing left that could differ. -/
theorem State.indist_applyReset (s t : State) : s.applyReset.Indist t.applyReset := by
  simp [State.Indist]

/-- An accepted START overwrites all a call will read. -/
theorem State.indist_acceptStart (hp : s.pins = t.pins) : s.acceptStart.Indist t.acceptStart := by
  simp [State.Indist, hp]

/-- The stage step reads only what the two agree on: the operands before stage 1, `W` before the others. -/
theorem State.Indist.afterStage (h : s.Indist t) (hb : s.busy = true) : s.afterStage.Indist t.afterStage := by
  obtain ⟨hstg, hbusy, hdone, hops, hw, hc⟩ := h
  have htb : t.busy = true := hbusy ▸ hb
  have hct : t.done = true → s.c = t.c := hdone ▸ hc
  by_cases hk : s.stg = 0
  · obtain ⟨hrq, hpq⟩ := hops hb hk
    simpa [State.Indist, State.afterStage, hk, hstg ▸ hk, hb, htb, hdone, hrq, hpq] using hct
  · have hww := hw hb hk
    rcases (stg_cases s.stg).resolve_left hk with hk | hk | hk
    · simpa [State.Indist, State.afterStage, hk, hstg ▸ hk, hb, htb, hdone, hww] using hct
    · simpa [State.Indist, State.afterStage, hk, hstg ▸ hk, hb, htb, hdone, hww] using hct
    · simp [State.Indist, State.afterStage, hk, hstg ▸ hk, hww]

/-- Under the same pins, indistinguishable engines take the same kind of step and stay indistinguishable. -/
theorem State.Indist.of_step (h : s.Indist t) (hp : s.pins = t.pins) :
    ∃ s' t', step s = .next s' ∧ step t = .next t' ∧ s'.Indist t' := by
  have hbusy := h.busy_eq
  rcases hr : s.pins.rst with _ | _
  · rcases hb : s.busy with _ | _
    · rcases hs : s.pins.start with _ | _
      · exact ⟨_, _, step_of_idle hr hb hs, step_of_idle (hp ▸ hr) (hbusy ▸ hb) (hp ▸ hs), h⟩
      · exact ⟨_, _, step_of_start hr hb hs, step_of_start (hp ▸ hr) (hbusy ▸ hb) (hp ▸ hs),
          State.indist_acceptStart hp⟩
    · exact ⟨_, _, step_of_busy hr hb, step_of_busy (hp ▸ hr) (hbusy ▸ hb), h.afterStage hb⟩
  · exact ⟨_, _, step_of_rst hr, step_of_rst (hp ▸ hr), State.indist_applyReset s t⟩

/-- Under every schedule of the pins they run and stay indistinguishable. -/
theorem State.Indist.runPins (ps : List Pins) (h : s.Indist t) :
    ∃ s' t', s.runPins ps = some s' ∧ t.runPins ps = some t' ∧ s'.Indist t' := by
  induction ps generalizing s t with
  | nil => exact ⟨s, t, rfl, rfl, h⟩
  | cons p ps ih =>
    obtain ⟨s₁, t₁, hs, ht, h₁⟩ := (h.drive p).of_step rfl
    rw [State.runPins_cons hs, State.runPins_cons ht]
    exact ih h₁

/-- A result that may be read is the same on both ports. -/
theorem State.Indist.cOut_eq (h : s.Indist t) (hd : s.done = true) : s.cOut = t.cOut := by
  obtain ⟨-, -, hdone, -, -, hc⟩ := h
  simp [State.cOut, ← hdone, hd, hc hd]

/-! ### The statements settled -/

/-- Settles O29: the control bits stay legal, and with them the registers follow the call. -/
theorem registersFollowTheCall : Obligations.RegistersFollowTheCall :=
  fun _ _ hl hc hstep => ⟨hl.of_step hstep, hc.of_step hl hstep⟩

/-- Settles O38, by induction on the schedule: indistinguishability is kept by every step, and gives equal ports. -/
theorem leftoversAreNeverObserved : Obligations.LeftoversAreNeverObserved := by
  intro ps s t h
  obtain ⟨s', t', hs, ht, h'⟩ := h.runPins ps
  exact ⟨s', t', hs, ht, h', h'.busy_eq, h'.done_eq, h'.cOut_eq⟩

/-- Settles O27, by the four things a step can do. -/
theorem controlBitsStayLegal : Obligations.ControlBitsStayLegal := fun _ _ h hstep => h.of_step hstep

/-- Settles O31, by the three things a step without reset can do. -/
theorem registersHaveTheirWriters : Obligations.RegistersHaveTheirWriters := by
  intro s t hr hstep
  rcases step_cases hstep with ⟨hr', -⟩ | ⟨-, hb, rfl⟩ | ⟨-, hb, hs, rfl⟩ | ⟨-, -, -, rfl⟩
  · simp [hr] at hr'
  · by_cases hk : s.stg = 3
    · simp [hb, hk, State.afterStage_w_of_last]
    · obtain ⟨hc, hbusy, hdone⟩ := State.afterStage_frame_of_not_last hk
      simpa [hb, hc, hbusy, hdone] using fun _ => hk
  · simp [hb, hs]
  · simp

/-- Settles O25: the control bits are constants of the reset state. -/
theorem resetClearsControlBits : Obligations.ResetClearsControlBits := ⟨rfl, rfl, rfl⟩

/-- Settles O28: the reset state is EMPTY. -/
theorem resetIsLegal : Obligations.ResetIsLegal := State.legal_of_not_busy rfl rfl

/-- Settles O30: the reset state is EMPTY, where the registers may hold anything. -/
theorem resetFollowsTheCall : Obligations.ResetFollowsTheCall := State.callInv_of_empty rfl rfl

end Sys2Proof.Machine
end

section
/-! PROOFS of `20_memory.md`: the packing of a matrix on a bus (R43), the sampling of the operand buses (R41), the pins
as the host's own (R46), the interleaving of several engines (R47). -/

namespace Sys2Proof

/-! ### Packing (R43) -/

/-- Field `j` of a packed row. -/
theorem extractLsb'_packRow (x : Vec4 Word) (j : Fin 4) : (packRow x).extractLsb' (16 * j.val) 16 = x.get j := by
  apply BitVec.eq_of_toNat_eq
  rw [BitVec.extractLsb'_toNat, toNat_packRow, Nat.shiftRight_eq_div_pow]
  fin_cases j <;> simp [Vec4.get] <;> omega

/-- Row `i` of a packed matrix. -/
theorem extractLsb'_pack (M : Mat) (i : Fin 4) : (pack M).extractLsb' (64 * i.val) 64 = packRow (M.get i) := by
  apply BitVec.eq_of_toNat_eq
  rw [BitVec.extractLsb'_toNat, toNat_pack, Nat.shiftRight_eq_div_pow]
  fin_cases i <;> simp [Vec4.get] <;> omega

/-- The field of an element lies in the field of its row. -/
theorem Bus.elem_eq_extractLsb'_row (b : Bus) (i j : Fin 4) :
    b.elem i j = (b.extractLsb' (64 * i.val) 64).extractLsb' (16 * j.val) 16 := by
  apply BitVec.eq_of_getLsbD_eq
  intro m hm
  have hpos : 16 * (4 * i.val + j.val) + m = 64 * i.val + (16 * j.val + m) := by ring
  have hrow : 16 * j.val + m < 64 := by omega
  simp [Bus.elem, hpos, hrow]

/-- Packing puts every element in its field. -/
@[simp] theorem elem_pack (M : Mat) (i j : Fin 4) : Bus.elem (pack M) i j = M.elem i j := by
  rw [Bus.elem_eq_extractLsb'_row, extractLsb'_pack, extractLsb'_packRow, Mat.elem]

/-- Bit `m` of an element's field is bit `16k + m` of the bus. -/
theorem Bus.getLsbD_elem (b : Bus) (i j : Fin 4) {m : Nat} (hm : m < 16) :
    (b.elem i j).getLsbD m = b.getLsbD (16 * (4 * i.val + j.val) + m) := by
  simp [Bus.elem, hm]

/-- The sixteen fields are the whole bus: equal fields, equal buses. -/
theorem Bus.ext_elem {a b : Bus} (h : ∀ i j, a.elem i j = b.elem i j) : a = b := by
  apply BitVec.eq_of_getLsbD_eq
  intro n hn
  have hm : n % 16 < 16 := Nat.mod_lt _ (by decide)
  obtain ⟨i, j, hpos⟩ : ∃ i j : Fin 4, n = 16 * (4 * i.val + j.val) + n % 16 :=
    ⟨⟨n / 64, by omega⟩, ⟨n / 16 % 4, by omega⟩, by dsimp only; omega⟩
  rw [hpos, ← a.getLsbD_elem i j hm, ← b.getLsbD_elem i j hm, h]

/-- Reading what was written. -/
@[simp] theorem unpack_pack (M : Mat) : unpack (pack M) = M :=
  Mat.ext_elem fun i j => by rw [elem_unpack, elem_pack]

/-- Writing what was read. -/
@[simp] theorem pack_unpack (b : Bus) : pack (unpack b) = b :=
  Bus.ext_elem fun i j => by rw [elem_pack, elem_unpack]

/-- Bit 0 of an element tells whether its value is odd. -/
theorem getLsbD_zero_iff (x : Word) : x.getLsbD 0 = true ↔ x.toInt % 2 = 1 := by
  rw [← BitVec.testBit_toNat, Nat.testBit_zero, decide_eq_true_iff, BitVec.toInt_eq_toNat_cond]
  split <;> omega

/-- Bit 15 of an element is its sign. -/
theorem getLsbD_fifteen_iff (x : Word) : x.getLsbD 15 = true ↔ x.toInt < 0 := by
  rw [← BitVec.msb_eq_getLsbD_last x, BitVec.msb_eq_toInt, decide_eq_true_iff]

namespace Machine

variable {s t : State}

/-! ### The host's pins (R46, R41) -/

@[simp] theorem State.afterStage_pins (s : State) : s.afterStage.pins = s.pins := by
  rcases s.afterStage_cases with ⟨-, h⟩ | ⟨-, h⟩ | ⟨-, h⟩ | ⟨-, h⟩ <;> rw [h] <;> rfl

/-- No step writes the pins. -/
theorem pins_of_step (h : step s = .next t) : t.pins = s.pins := by
  rcases step_cases h with ⟨-, rfl⟩ | ⟨-, -, rfl⟩ | ⟨-, -, -, rfl⟩ | ⟨-, -, -, rfl⟩ <;> simp

/-- Reset does not look at the pins. -/
theorem State.applyReset_drive (s : State) (p : Pins) : (s.drive p).applyReset = s.applyReset.drive p := rfl

/-- The stage step does not look at the pins. -/
theorem State.afterStage_drive (s : State) (p : Pins) : (s.drive p).afterStage = s.afterStage.drive p := by
  rcases stg_cases s.stg with hk | hk | hk | hk <;> simp [State.afterStage, hk] <;> rfl

/-- A step that accepts no START depends on the levels of `rst` and `start` alone: under other buses it is the same. -/
theorem step_drive_of_not_accepting {p : Pins} (hrst : p.rst = s.pins.rst) (hstart : p.start = s.pins.start)
    (hno : s.pins.rst = true ∨ s.busy = true ∨ s.pins.start = false) (h : step s = .next t) :
    step (s.drive p) = .next (t.drive p) := by
  rcases step_cases h with ⟨hr, rfl⟩ | ⟨hr, hb, rfl⟩ | ⟨hr, hb, hs, -⟩ | ⟨hr, hb, hs, rfl⟩
  · rw [← State.applyReset_drive]
    exact step_of_rst (hrst.trans hr)
  · rw [← State.afterStage_drive]
    exact step_of_busy (hrst.trans hr) hb
  · simp [hr, hb, hs] at hno
  · exact step_of_idle (hrst.trans hr) hb (hstart.trans hs)

/-! ### Several engines (R47) -/

/-- Every step answers a next state. -/
theorem exists_step (s : State) : ∃ t, step s = .next t := by
  rcases hr : s.pins.rst with _ | _
  · rcases hb : s.busy with _ | _
    · rcases hs : s.pins.start with _ | _
      · exact ⟨_, step_of_idle hr hb hs⟩
      · exact ⟨_, step_of_start hr hb hs⟩
    · exact ⟨_, step_of_busy hr hb⟩
  · exact ⟨_, step_of_rst hr⟩

/-- A step of engine `k` replaces that engine and leaves the others. -/
theorem Instances.stepAt_of_step {es : Instances} {k : Nat} {e : State} {p : Pins} (hk : es[k]? = some e)
    (h : step (e.drive p) = .next t) : es.stepAt k p = some (es.set k t) := by
  simp [Instances.stepAt, hk, State.next?_of_step h]

/-- A run of several engines is its first step and then the rest. -/
theorem Instances.run_cons {es fs : Instances} {k : Nat} {p : Pins} (as : List (Nat × Pins))
    (h : es.stepAt k p = some fs) : es.run ((k, p) :: as) = fs.run as := by
  simp [Instances.run, h]

@[simp] theorem pinsOf_nil (k : Nat) : pinsOf k [] = [] := rfl

@[simp] theorem pinsOf_cons_same (k : Nat) (p : Pins) (as : List (Nat × Pins)) :
    pinsOf k ((k, p) :: as) = p :: pinsOf k as := by
  simp [pinsOf]

theorem pinsOf_cons_of_ne {k j : Nat} (h : k ≠ j) (p : Pins) (as : List (Nat × Pins)) :
    pinsOf j ((k, p) :: as) = pinsOf j as := by
  simp [pinsOf, h]

/-! ### The statements settled -/

/-- Settles O41, by induction on the schedule: an entry for engine `k` is the first step of `k`'s own run, and no
step of any other's. -/
theorem interleavingNeverMatters : Obligations.InterleavingNeverMatters := by
  intro sched
  induction sched with
  | nil => exact fun es _ => ⟨es, rfl, rfl, fun k e hk => ⟨e, hk, rfl⟩⟩
  | cons a as ih =>
    obtain ⟨k, p⟩ := a
    intro es hall
    have hlt : k < es.length := hall (k, p) (by simp)
    have hk : es[k]? = some es[k] := List.getElem?_eq_getElem hlt
    obtain ⟨t, hstep⟩ := exists_step (es[k].drive p)
    obtain ⟨fs, hrun, hlen, halone⟩ := ih (es.set k t) fun a ha => by
      simpa using hall a (List.mem_cons_of_mem _ ha)
    refine ⟨fs, ?_, by simpa using hlen, fun j e hj => ?_⟩
    · rw [Instances.run_cons as (Instances.stepAt_of_step hk hstep), hrun]
    · by_cases hkj : k = j
      · subst hkj
        obtain rfl : es[k] = e := Option.some.inj (hk.symm.trans hj)
        obtain ⟨f, hf, halone⟩ := halone k t (List.getElem?_set_self hlt)
        exact ⟨f, hf, by rw [pinsOf_cons_same, State.runPins_cons hstep, halone]⟩
      · rw [pinsOf_cons_of_ne hkj]
        exact halone j e (by rw [List.getElem?_set_ne hkj, hj])

/-- Settles O5: packing puts every element in its field, and the fields determine the matrix and the bus. -/
theorem busPackingIsRowMajor : Obligations.BusPackingIsRowMajor := by
  refine ⟨fun M i j => ⟨elem_pack M i j, ?_, ?_⟩, elem_unpack, unpack_pack, pack_unpack, by decide⟩
  · rw [Mat.vals, ← getLsbD_zero_iff, ← elem_pack, Bus.getLsbD_elem _ _ _ (by decide), Nat.add_zero]
  · rw [Mat.vals, ← getLsbD_fifteen_iff, ← elem_pack, Bus.getLsbD_elem _ _ _ (by decide)]

/-- Settles O32, by the four things a step can do. -/
theorem hostPinsAreNeverWritten : Obligations.HostPinsAreNeverWritten := fun _ _ => pins_of_step

/-- Settles O33: an accepted START takes both buses, and every other step is the same under other buses. -/
theorem busesSampledOnlyAtAcceptance : Obligations.BusesSampledOnlyAtAcceptance :=
  ⟨fun _ hr hb hs => ⟨_, step_of_start hr hb hs, rfl, rfl⟩,
    fun _ _ _ _ hno h => step_drive_of_not_accepting rfl rfl hno h⟩

end Machine

end Sys2Proof
end

section
/-! PROOFS of `30_encoding.md`: the number format of an element (R55), the code words of the operations (R56, R57, R59),
and that a step runs the operation decoded from the code word it looks at (R57, R72). -/

namespace Sys2Proof

/-! ### The number format (R55) -/

/-- The low `k` bits of a word, each with its weight, add up to the word modulo `2^k`. -/
theorem sum_weighted_bits {w : Nat} (b : BitVec w) (k : Nat) :
    ∑ n ∈ Finset.range k, 2 ^ n * (b.getLsbD n).toNat = b.toNat % 2 ^ k := by
  induction k with
  | zero => simp [Nat.mod_one]
  | succ k ih =>
    have hbit : (b.getLsbD k).toNat = b.toNat / 2 ^ k % 2 := Nat.toNat_testBit _ _
    rw [Finset.sum_range_succ, ih, hbit, Nat.mod_pow_succ]

/-- The value of an element is its pattern as a number, less `2^16` when the sign bit is set. -/
theorem toInt_eq_toNat_sub_sign (b : Word) : b.toInt = b.toNat - 65536 * ((b.getLsbD 15).toNat : Int) := by
  have hmsb : b.msb = b.getLsbD 15 := BitVec.msb_eq_getLsbD_last b
  rw [BitVec.toInt_eq_msb_cond, hmsb]
  cases b.getLsbD 15 <;> simp

/-- The value of an element by the rule's formula: the sign bit weighs `-2^15`, the others `2^n`. -/
theorem toInt_eq_sum_bits (b : Word) : b.toInt = -32768 * ((b.getLsbD 15).toNat : Int) +
    ∑ n ∈ Finset.range 15, 2 ^ n * ((b.getLsbD n).toNat : Int) := by
  have hall : b.toNat = b.toNat % 2 ^ 15 + 2 ^ 15 * (b.getLsbD 15).toNat := by
    rw [← sum_weighted_bits b 15, ← Finset.sum_range_succ, sum_weighted_bits b 16, Nat.mod_eq_of_lt b.isLt]
  have hlow : ∑ n ∈ Finset.range 15, 2 ^ n * ((b.getLsbD n).toNat : Int) = (b.toNat % 2 ^ 15 : Nat) := by
    rw [← sum_weighted_bits b 15]
    push_cast
    rfl
  rw [toInt_eq_toNat_sub_sign, hlow]
  omega

/-- The pattern of an element's value is the element. -/
@[simp] theorem enc16_toInt (b : Word) : enc16 b.toInt = b := BitVec.ofInt_toInt

/-- The pattern of an integer as a number is the integer modulo `2^16`. -/
theorem toNat_enc16 (v : Int) : ((enc16 v).toNat : Int) = v % 65536 := by
  rw [enc16, BitVec.toNat_ofInt]
  exact Int.toNat_of_nonneg (Int.emod_nonneg v (by decide))

/-! ### The code words (R56, R57, R59) -/

/-- The per-operation laws, for every operation. -/
theorem Laws.Encoding.all : (i : Instr) → Laws.Encoding.Statement i
  | .start => Laws.Encoding.start
  | .diff => Laws.Encoding.diff
  | .rowpass => Laws.Encoding.rowpass
  | .colpass => Laws.Encoding.colpass
  | .rdiv => Laws.Encoding.rdiv

/-- The code word of an operation fits its format. -/
theorem wordOk_encode (i : Instr) : (encode i).1.wordOk (encode i).2 = true := by
  obtain ⟨-, hword, -⟩ := Laws.Encoding.all i
  exact hword

/-- The code word of an operation decodes to it. -/
@[simp] theorem decode_encode (i : Instr) : decode (encode i).1 (encode i).2 = .ok i := by
  obtain ⟨-, -, hdecode⟩ := Laws.Encoding.all i
  exact hdecode

/-- A word that decodes is the code word of what it decodes to. -/
theorem encode_of_decode {f : Format} {w : Nat} {i : Instr} (h : decode f w = .ok i) : encode i = (f, w) := by
  unfold decode at h
  split at h <;> cases h <;> rfl

/-- Every value of the sequencer names a stage. -/
theorem exists_decode_stg (k : BitVec 2) : ∃ i, decode .stg k.toNat = .ok i := by
  rcases Machine.stg_cases k with rfl | rfl | rfl | rfl
  · exact ⟨.diff, rfl⟩
  · exact ⟨.rowpass, rfl⟩
  · exact ⟨.colpass, rfl⟩
  · exact ⟨.rdiv, rfl⟩

namespace Machine

variable {s : State} {i : Instr}

/-! ### The operation a step runs (R57, R72) -/

/-- In flight, the sequencer is what is looked at. -/
theorem State.fetch_of_busy (hb : s.busy = true) : s.fetch = accepted (decode .stg s.stg.toNat) := by
  simp [State.fetch, State.codeWord, hb]

/-- Otherwise it is the pin `start`. -/
theorem State.fetch_of_not_busy (hb : s.busy = false) : s.fetch = accepted (decode .cmd s.pins.start.toNat) := by
  simp [State.fetch, State.codeWord, hb]

/-- Without reset, the step is the operation that is enabled. -/
theorem step_of_fetch_some (hr : s.pins.rst = false) (hf : s.fetch = some i) : step s = exec i s := by
  simp [step, hr, hf]

/-- Without reset and without an enabled operation, nothing. -/
theorem step_of_fetch_none (hr : s.pins.rst = false) (hf : s.fetch = none) : step s = .next s := by
  simp [step, hr, hf]

/-- Placing releases `rst`. -/
@[simp] theorem State.place_pins_rst (s : State) (i : Instr) : (s.place (some i)).pins.rst = false := by
  cases i <;> rfl

/-- The operation placed is the one that is enabled. -/
@[simp] theorem State.fetch_place (s : State) (i : Instr) : (s.place (some i)).fetch = some i := by
  cases i <;> rfl

/-! ### The statements settled -/

/-- Settles O4: the low bits add up to the pattern modulo `2^15`, and the sign bit takes `2^16` off what it adds. -/
theorem elementsAreTwosComplement : Obligations.ElementsAreTwosComplement :=
  ⟨toInt_eq_sum_bits, fun b => ⟨fits_toInt b, enc16_toInt b⟩,
    fun v hv => ⟨toInt_enc16_of_fits hv, toNat_enc16 v⟩⟩

/-- Settles O20: the laws of each operation, and the decoder's accepted words case by case. -/
theorem encodeAndDecodeAgree : Obligations.EncodeAndDecodeAgree := by
  refine ⟨fun i => ⟨wordOk_encode i, decode_encode i⟩, fun f w i h => ?_, exists_decode_stg⟩
  have henc := encode_of_decode h
  exact ⟨henc, by simpa only [henc] using wordOk_encode i⟩

/-- Settles O22: the operation placed is the one the next step finds enabled, `rst` being released. -/
theorem placedWordIsTheNextOperation : Obligations.PlacedWordIsTheNextOperation := by
  intro s nbits w i h
  rw [State.withFetchWord, h]
  exact step_of_fetch_some (s.place_pins_rst i) (s.fetch_place i)

/-- Settles O19: the words written out are the operations' code words; no command is the decoder's rejection of 0. -/
theorem writtenCodesDecode : Obligations.WrittenCodesDecode :=
  ⟨decode_encode .start, decode_encode .diff, decode_encode .rowpass, decode_encode .colpass, decode_encode .rdiv, rfl⟩

/-- Settles O21: the enabled operation is read from `STG` in flight, from `start` otherwise, and the step is its. -/
theorem stepRunsTheDecodedOperation : Obligations.StepRunsTheDecodedOperation := by
  refine fun s hr => ⟨fun i hb hd _ => ?_, fun i hb hd _ => ?_, fun e hb hd => ?_⟩
  · exact step_of_fetch_some hr (by rw [State.fetch_of_busy hb, hd, accepted])
  · exact step_of_fetch_some hr (by rw [State.fetch_of_not_busy hb, hd, accepted])
  · exact step_of_fetch_none hr (by rw [State.fetch_of_not_busy hb, hd, accepted])

end Machine

end Sys2Proof
end

section
/-! PROOFS of `40_transform.md`: the command START (R71), the stage step and its sequence (R72), the whole call (R74,
R76), READC (R73) and the pseudo-instruction TRANSFORM (R77). -/

namespace Sys2Proof.Machine

variable {s t : State}

/-! ### START (R71) -/

/-- With no call in flight START is accepted. -/
theorem exec_start_of_idle (hb : s.busy = false) : exec .start s = .next s.acceptStart := by
  simp [exec, execStart, hb]

/-- With a call in flight START changes nothing. -/
theorem exec_start_of_busy (hb : s.busy = true) : exec .start s = .next s := by
  simp [exec, execStart, hb]

/-- With a call in flight and no reset, the levels on the pins go through the step and have no other part in it. -/
theorem step_drive_of_busy {p : Pins} (hr : p.rst = false) (hb : s.busy = true) :
    step (s.drive p) = .next (s.afterStage.drive p) := by
  rw [← State.afterStage_drive]
  exact step_of_busy hr hb

/-! ### The stage step and its sequence (R72) -/

/-- An operation of format STG is a stage step at its code. -/
theorem exec_of_encode_stg {i : Instr} {k : Nat} (h : encode i = (.stg, k)) (s : State) :
    ∃ (code : BitVec 2) (op : State → State), code.toNat = k ∧ exec i s = .next (s.stageStep code op) := by
  cases i <;> cases h
  case diff => exact ⟨0, _, rfl, rfl⟩
  case rowpass => exact ⟨1, _, rfl, rfl⟩
  case colpass => exact ⟨2, _, rfl, rfl⟩
  case rdiv => exact ⟨3, _, rfl, rfl⟩

/-- Stage 1. -/
theorem State.afterStage_of_stg_zero (hk : s.stg = 0) :
    s.afterStage = (s.writeW (diffM s.rq s.pq)).advanceStg := by
  simp [State.afterStage, hk]

/-- Stage 2. -/
theorem State.afterStage_of_stg_one (hk : s.stg = 1) : s.afterStage = (s.writeW (rowpassM s.w)).advanceStg := by
  simp [State.afterStage, hk]

/-- Stage 3. -/
theorem State.afterStage_of_stg_two (hk : s.stg = 2) : s.afterStage = (s.writeW (colpassM s.w)).advanceStg := by
  simp [State.afterStage, hk]

/-- Stage 4. -/
theorem State.afterStage_of_stg_three (hk : s.stg = 3) :
    s.afterStage = ((s.writeC (rdivM s.w)).endCall).advanceStg := by
  simp [State.afterStage, hk]

/-- Every stage step advances the sequencer. -/
@[simp] theorem State.afterStage_stg (s : State) : s.afterStage.stg = s.stg + 1 := by
  rcases s.afterStage_cases with ⟨-, h⟩ | ⟨-, h⟩ | ⟨-, h⟩ | ⟨-, h⟩ <;> rw [h] <;> rfl

/-- Without reset, a step that finds no call in flight leaves W and C alone. -/
theorem w_c_of_step_of_not_busy (hr : s.pins.rst = false) (hb : s.busy = false) (h : step s = .next t) :
    t.w = s.w ∧ t.c = s.c := by
  rcases step_cases h with ⟨hr', -⟩ | ⟨-, hb', -⟩ | ⟨-, -, -, rfl⟩ | ⟨-, -, -, rfl⟩
  · simp [hr] at hr'
  · simp [hb] at hb'
  · exact ⟨rfl, rfl⟩
  · exact ⟨rfl, rfl⟩

/-! ### Several stage steps in a row -/

/-- The sequencer after `n` stage steps. -/
theorem State.toNat_stg_iterate (s : State) (n : Nat) :
    (State.afterStage^[n] s).stg.toNat = (s.stg.toNat + n) % 4 := by
  induction n with
  | zero => exact (Nat.mod_eq_of_lt s.stg.isLt).symm
  | succ n ih =>
    rw [Function.iterate_succ_apply', State.afterStage_stg, BitVec.toNat_add, ih]
    exact Nat.mod_add_mod ..

/-- Stage steps do not look at the pins. -/
theorem State.iterate_afterStage_drive (s : State) (p : Pins) (n : Nat) :
    State.afterStage^[n] (s.drive p) = (State.afterStage^[n] s).drive p := by
  have hcomm : Function.Commute State.afterStage (State.drive · p) := (·.afterStage_drive p)
  exact hcomm.iterate_left n s

/-- While stages are outstanding the call stays in flight (R76). -/
theorem State.iterate_in_flight (hb : s.busy = true) (hd : s.done = false) {n : Nat} (hn : n < 4 - s.stg.toNat) :
    (State.afterStage^[n] s).busy = true ∧ (State.afterStage^[n] s).done = false := by
  induction n with
  | zero => exact ⟨hb, hd⟩
  | succ n ih =>
    obtain ⟨hbn, hdn⟩ := ih (by omega)
    have hstg := s.toNat_stg_iterate n
    have hk : (State.afterStage^[n] s).stg ≠ 3 := fun h3 => by
      rw [h3] at hstg
      simp at hstg
      omega
    obtain ⟨-, hbusy, hdone⟩ := State.afterStage_frame_of_not_last hk
    rw [Function.iterate_succ_apply']
    exact ⟨hbusy.trans hbn, hdone.trans hdn⟩

/-- The last stage outstanding ends the call (R76). -/
theorem State.iterate_outstanding (s : State) :
    (State.afterStage^[4 - s.stg.toNat] s).busy = false ∧ (State.afterStage^[4 - s.stg.toNat] s).done = true := by
  have hlt := s.stg.isLt
  obtain ⟨n, hn⟩ : ∃ n, 4 - s.stg.toNat = n + 1 := ⟨3 - s.stg.toNat, by omega⟩
  have hk : (State.afterStage^[n] s).stg = 3 :=
    BitVec.eq_of_toNat_eq ((s.toNat_stg_iterate n).trans (by simp; omega))
  rw [hn, Function.iterate_succ_apply', State.afterStage_of_stg_three hk]
  exact ⟨rfl, rfl⟩

/-- The four stages of a call: W is the stage-3 result, C the transform, and the call is over (R70, R74). -/
theorem State.iterate_four_of_stg_zero (hk : s.stg = 0) : State.afterStage^[4] s =
    ((s.writeW (stage3 s.rq s.pq)).writeC (transform s.rq s.pq)).endCall := by
  have hiter : State.afterStage^[4] s = s.afterStage.afterStage.afterStage.afterStage := rfl
  rw [hiter, State.afterStage_of_stg_three (by simp [hk]), State.afterStage_of_stg_two (by simp [hk]),
    State.afterStage_of_stg_one (by simp [hk]), State.afterStage_of_stg_zero hk]
  apply State.ext_fields <;> simp [hk, stage3, transform]

/-- A run without reset in which every step finds a call in flight is as many stage steps as it is long. -/
theorem State.runPins_of_in_flight {ps : List Pins} (hr : ∀ p ∈ ps, p.rst = false)
    (hb : ∀ n < ps.length, (State.afterStage^[n] s).busy = true) :
    ∃ p, s.runPins ps = some ((State.afterStage^[ps.length] s).drive p) := by
  induction ps generalizing s with
  | nil => exact ⟨s.pins, rfl⟩
  | cons p ps ih =>
    have hb0 : s.busy = true := hb 0 (Nat.succ_pos _)
    have hstep := step_drive_of_busy (hr p List.mem_cons_self) hb0
    obtain ⟨q, hq⟩ := ih (s := s.afterStage.drive p) (fun q hq => hr q (List.mem_cons_of_mem _ hq)) fun n hn => by
      rw [State.iterate_afterStage_drive]
      exact hb (n + 1) (Nat.succ_lt_succ hn)
    refine ⟨q, ?_⟩
    rw [State.runPins_cons hstep, hq, State.iterate_afterStage_drive]
    rfl

/-- Waiting goes through the stage steps of a call in flight. -/
theorem State.awaitDone_of_in_flight {m : Nat} (k : Nat) (hr : s.pins.rst = false)
    (h : ∀ n < m, (State.afterStage^[n] s).busy = true ∧ (State.afterStage^[n] s).done = false) :
    s.awaitDone (k + m) = (State.afterStage^[m] s).awaitDone k := by
  induction m generalizing s with
  | zero => rfl
  | succ m ih =>
    obtain ⟨hb, hd⟩ := h 0 (Nat.succ_pos m)
    rw [← Nat.add_assoc, State.awaitDone_of_busy _ hr hb hd]
    exact ih (by simpa using hr) fun n hn => h (n + 1) (Nat.succ_lt_succ hn)

/-! ### READC (R73) -/

/-- While a result is held the port shows it. -/
theorem State.cOut_of_done (hd : s.done = true) : s.cOut = pack s.c := by
  simp [State.cOut, hd]

/-- While a result is held READC gives it and changes nothing. -/
theorem State.readC_of_done (hd : s.done = true) : s.readC = (s.c, s) := by
  simp [State.readC, State.cOut_of_done hd, hd]

/-- READC leaves the state or counts one free value drawn. -/
theorem State.readC_state_cases (s : State) : s.readC.2 = s ∨ s.readC.2 = s.draw :=
  ite_eq_or_eq ..

/-! ### Scripts (R61, R62) -/

/-- A script is its first line and then the rest. -/
theorem Run.script_cons {u : Run} {l : Line} {ls : List Line} (h : l.act u.engine = some t) :
    u.script (l :: ls) = Run.script { engine := t, reads := u.reads ++ l.gives u.engine } ls := by
  simp [Run.script, h]

/-- An idle engine after the script line `START R, P`: the command accepted and `start` taken back. -/
def State.started (s : State) (R P : Mat) : State :=
  (s.drive (Pins.command R P)).acceptStart.drive { Pins.command R P with start := false }

@[simp] theorem State.started_rq (s : State) (R P : Mat) : (s.started R P).rq = R := unpack_pack R
@[simp] theorem State.started_pq (s : State) (R P : Mat) : (s.started R P).pq = P := unpack_pack P

/-- The line START on an idle engine is done at once. -/
theorem Line.act_start_of_idle (R P : Mat) (hb : s.busy = false) :
    (Line.start R P).act s = some (s.started R P) := by
  simp [Line.act, State.awaitAccept_of_idle (s := s.drive (Pins.command R P)) 4 rfl hb rfl, State.started]

/-- The line WAIT right after acceptance: the four stages. -/
theorem Line.act_wait_of_accepted (hr : s.pins.rst = false) (hb : s.busy = true) (hd : s.done = false)
    (hk : s.stg = 0) : Line.wait.act s = some (State.afterStage^[4] s) := by
  have hdone : (State.afterStage^[4] s).done = true := by rw [State.iterate_four_of_stg_zero hk]; rfl
  have hflight : ∀ n < 4, (State.afterStage^[n] s).busy = true ∧ (State.afterStage^[n] s).done = false :=
    fun n hn => State.iterate_in_flight hb hd (by simpa [hk] using hn)
  rw [Line.act, State.awaitDone_of_in_flight 1 hr hflight, State.awaitDone_of_done 1 hdone]

/-- The line READC while a result is held changes nothing. -/
theorem Line.act_readC_of_done (hd : s.done = true) : Line.readC.act s = some s := by
  rw [Line.act, State.readC_of_done hd]

/-- The line READC while a result is held gives the result. -/
theorem Line.gives_readC_of_done (hd : s.done = true) : Line.readC.gives s = [s.c] := by
  rw [Line.gives, State.readC_of_done hd]

/-! ### The statements settled -/

/-- Settles O23, by the stage that `STG` names. -/
theorem stageStepIsSequenced : Obligations.StageStepIsSequenced := by
  refine ⟨fun s hr hb => ⟨_, step_of_busy hr hb, s.toNat_stg_iterate 1,
      fun hk => congrArg State.w (State.afterStage_of_stg_zero hk),
      fun hk => congrArg State.w (State.afterStage_of_stg_one hk),
      fun hk => congrArg State.w (State.afterStage_of_stg_two hk), ?_, ?_, by simp⟩,
    fun s hr hb hs => step_of_idle hr hb hs, fun s t hr hstep hne => ?_⟩
  · intro hk
    rw [State.afterStage_of_stg_three hk]
    exact ⟨rfl, rfl, rfl, rfl⟩
  · intro hk
    obtain ⟨hc, hbusy, hdone⟩ := State.afterStage_frame_of_not_last hk
    exact ⟨hc, hbusy.trans hb, hdone⟩
  · by_contra hb
    obtain ⟨hw, hc⟩ := w_c_of_step_of_not_busy hr (Bool.eq_false_of_not_eq_true hb) hstep
    simp [hw, hc] at hne

/-- Settles O36: the accepted START, and then four steps that find the call in flight. -/
theorem callDeliversTransform : Obligations.CallDeliversTransform := by
  intro s p0 p1 p2 p3 p4 hb hs hr0 hr1 hr2 hr3 hr4
  obtain ⟨p, hrun⟩ := State.runPins_of_in_flight (s := (s.drive p0).acceptStart) (ps := [p1, p2, p3, p4])
    (by simp [hr1, hr2, hr3, hr4]) fun n hn => (State.iterate_in_flight rfl rfl hn).1
  have hfour := State.iterate_four_of_stg_zero (s := (s.drive p0).acceptStart) rfl
  refine ⟨_, (State.runPins_cons (step_of_start hr0 hb hs)).trans hrun, ?_⟩
  simp [hfour]

/-- Settles O37: the steps of the run are stage steps, of which the last one outstanding ends the call. -/
theorem callEndsAfterOutstandingStages : Obligations.CallEndsAfterOutstandingStages := by
  intro s ps hl hb hr
  have hflight {n : Nat} (hn : n < 4 - s.stg.toNat) := State.iterate_in_flight hb (hl.done_of_busy hb) hn
  have hrun (hle : ps.length ≤ 4 - s.stg.toNat) :=
    State.runPins_of_in_flight (s := s) hr fun n hn => (hflight (hn.trans_le hle)).1
  refine ⟨fun hlt => ?_, fun heq => ?_⟩
  · obtain ⟨p, hp⟩ := hrun hlt.le
    exact ⟨_, hp, hflight hlt⟩
  · obtain ⟨p, hp⟩ := hrun heq.le
    rw [heq] at hp
    exact ⟨_, hp, s.iterate_outstanding⟩

/-- Settles O40, line by line: START is accepted, WAIT is the four stages, READC reads the result. -/
theorem transformScriptDeliversTransform : Obligations.TransformScriptDeliversTransform := by
  intro s R P xs hb
  have hwait := Line.act_wait_of_accepted (s := s.started R P) rfl rfl rfl rfl
  have hfour := State.iterate_four_of_stg_zero (s := s.started R P) rfl
  have hdone : (State.afterStage^[4] (s.started R P)).done = true := by rw [hfour]; rfl
  refine ⟨State.afterStage^[4] (s.started R P), ?_, by simp [hfour], hdone, by rw [hfour]; rfl, ?_⟩
  · rw [transformLines, Run.script_cons (Line.act_start_of_idle R P hb), Run.script_cons hwait,
      Run.script_cons (Line.act_readC_of_done hdone), Line.gives_readC_of_done hdone, hfour]
    simp [Run.script, Line.gives]
  · simp [hfour, stage3]

/-- Settles O11: the fields of the state after acceptance. -/
theorem startAcceptedWhenIdle : Obligations.StartAcceptedWhenIdle :=
  fun s hb => ⟨s.acceptStart, exec_start_of_idle hb, elem_unpack s.pins.rIn, elem_unpack s.pins.pIn,
    rfl, rfl, rfl, rfl, rfl, rfl, rfl⟩

/-- Settles O12: in flight START does nothing, and both steps are the stage step. -/
theorem startNotAcceptedWhileBusy : Obligations.StartNotAcceptedWhileBusy :=
  fun s hb => ⟨exec_start_of_busy hb, fun hr =>
    ⟨s.afterStage, step_drive_of_busy hr hb, step_drive_of_busy hr hb⟩⟩

/-- Settles O17: an operation of format STG is a stage step at its code, and out of turn that is nothing. -/
theorem stageOperationOutOfTurnChangesNothing : Obligations.StageOperationOutOfTurnChangesNothing := by
  intro i k s henc hturn
  obtain ⟨code, op, rfl, hexec⟩ := exec_of_encode_stg henc s
  rw [hexec, State.stageStep_out_of_turn op fun ⟨hb, hk⟩ => hturn ⟨hb, by rw [hk]⟩]

/-- Settles O34: the result while it is held, and the model's counter as all that a READC can change. -/
theorem readcReturnsTheResult : Obligations.ReadcReturnsTheResult := by
  refine ⟨fun s hd => ⟨State.readC_of_done hd, State.cOut_of_done hd⟩, fun s => ?_⟩
  rcases s.readC_state_cases with h | h <;> simp [h]

end Sys2Proof.Machine
end

section
/-! PROOFS of `41_difference.md`: the difference DIFFM of two matrices and the stage DIFF (R85). -/

namespace Sys2Proof

variable {R P : Mat}

/-! ### The difference of two matrices -/

/-- The wrap returns its argument precisely when that is an `int16`. -/
theorem toInt_wrap16_eq_iff_fits (v : Int) : (wrap16 v).toInt = v ↔ Fits v :=
  ⟨fun h => h ▸ fits_toInt _, toInt_wrap16_of_fits⟩

/-- An element of DIFFM is the exact difference, wrapped once. -/
theorem vals_diffM (R P : Mat) (i j : Fin 4) : (diffM R P).vals i j = (wrap16 (exactD R P i j)).toInt := by
  simp only [Mat.vals, diffM, Mat.elem_ofFn, sub16, exactD]

/-- The exact difference of two `int16` values needs 17 bits. -/
theorem exactD_bounds (R P : Mat) (i j : Fin 4) : -65535 ≤ exactD R P i j ∧ exactD R P i j ≤ 65535 := by
  have hr : Fits (R.vals i j) := fits_toInt _
  have hp : Fits (P.vals i j) := fits_toInt _
  rw [exactD]
  omega

/-- On the byte scale the exact difference has magnitude 255 at most. -/
theorem exactD_bounds_of_byteScale (hR : ByteScale R) (hP : ByteScale P) (i j : Fin 4) :
    -255 ≤ exactD R P i j ∧ exactD R P i j ≤ 255 := by
  have hr := hR i j
  have hp := hP i j
  rw [exactD]
  omega

/-- On the byte scale DIFFM is exact. -/
theorem vals_diffM_of_byteScale (hR : ByteScale R) (hP : ByteScale P) (i j : Fin 4) :
    (diffM R P).vals i j = exactD R P i j := by
  have hbounds := exactD_bounds_of_byteScale hR hP i j
  exact (vals_diffM R P i j).trans (toInt_wrap16_of_fits (by omega))

/-! ### The stage -/

namespace Machine

/-- In turn DIFF writes DIFFM of the operand registers to W, and the sequencer advances. -/
theorem exec_diff_in_turn {s : State} (hb : s.busy = true) (hk : s.stg = 0) :
    exec .diff s = .next (s.writeW (diffM s.rq s.pq)).advanceStg :=
  congrArg Host.Outcome.next (State.stageStep_in_turn _ hb hk)

/-- Settles O13: W is DIFFM of the operand registers, whose elements are the wrapped exact differences. -/
theorem diffStoresWrappedDifference : Obligations.DiffStoresWrappedDifference := by
  refine ⟨decode_encode .diff, fun s hb hk => ⟨_, exec_diff_in_turn hb hk, fun i j => ?_, by simp [hk]⟩⟩
  have hw : ((s.writeW (diffM s.rq s.pq)).advanceStg.w).vals i j = (wrap16 (exactD s.rq s.pq i j)).toInt :=
    vals_diffM s.rq s.pq i j
  refine ⟨hw.trans (toInt_wrap16 _), exactD_bounds s.rq s.pq i j, ?_, fun hR hP => ?_⟩
  · rw [hw]
    exact toInt_wrap16_eq_iff_fits _
  · have hexact := vals_diffM_of_byteScale hR hP i j
    exact ⟨hexact, hexact ▸ exactD_bounds_of_byteScale hR hP i j⟩

end Machine

end Sys2Proof
end

section
/-! PROOFS of `42_butterfly.md`: the butterfly as a product with A (R91), the stages ROWPASS (R92) and COLPASS (R93),
and W after stages 2 and 3 as an exact product wrapped once (R94). -/

namespace Sys2Proof

/-! ### A row vector times A, exact -/

section

variable (u : Fin 4 → Int)

theorem rowTimes_zero : rowTimes u 0 = u 0 + u 1 + u 2 + u 3 := by
  simp only [rowTimes, Config.hadamard, mul_one]

theorem rowTimes_one : rowTimes u 1 = u 0 + u 1 - u 2 - u 3 := by
  simp only [rowTimes, Config.hadamard]
  ring

theorem rowTimes_two : rowTimes u 2 = u 0 - u 1 - u 2 + u 3 := by
  simp only [rowTimes, Config.hadamard]
  ring

theorem rowTimes_three : rowTimes u 3 = u 0 - u 1 + u 2 - u 3 := by
  simp only [rowTimes, Config.hadamard]
  ring

end

variable {u : Fin 4 → Int} {m v : Int}

/-- A row of equal values: all of it goes to column 0. -/
theorem rowTimes_of_const (h : ∀ k, u k = v) :
    rowTimes u 0 = 4 * v ∧ rowTimes u 1 = 0 ∧ rowTimes u 2 = 0 ∧ rowTimes u 3 = 0 := by
  simp only [rowTimes_zero, rowTimes_one, rowTimes_two, rowTimes_three, h]
  omega

/-- The zero row. -/
theorem rowTimes_of_zero (h : ∀ k, u k = 0) (j : Fin 4) : rowTimes u j = 0 := by
  simp [rowTimes, h]

/-- Outputs that fit make the temporaries fit: each temporary is half the sum or the difference of two outputs. -/
theorem firstLayerFits_of_fits_rowTimes (h : ∀ j, Fits (rowTimes u j)) :
    FirstLayerFits (u 0) (u 1) (u 2) (u 3) := by
  have h0 := h 0
  have h1 := h 1
  have h2 := h 2
  have h3 := h 3
  rw [rowTimes_zero] at h0
  rw [rowTimes_one] at h1
  rw [rowTimes_two] at h2
  rw [rowTimes_three] at h3
  omega

/-- A magnitude within `int16`'s fits. -/
theorem fits_of_abs_le (h : |v| ≤ m) (hm : m ≤ 32767) : Fits v := by
  obtain ⟨hlo, hhi⟩ := abs_le.mp h
  omega

/-- A sum or a difference has at most twice the magnitude of its terms. -/
theorem abs_add_and_sub_le {a b : Int} (ha : |a| ≤ m) (hb : |b| ≤ m) : |a + b| ≤ 2 * m ∧ |a - b| ≤ 2 * m := by
  simp only [abs_le] at *
  omega

/-- The temporaries have at most twice the magnitude of the row. -/
theorem abs_temporaries_le (h : ∀ k, |u k| ≤ m) :
    |u 0 + u 1| ≤ 2 * m ∧ |u 2 + u 3| ≤ 2 * m ∧ |u 0 - u 1| ≤ 2 * m ∧ |u 2 - u 3| ≤ 2 * m := by
  obtain ⟨h0, h2⟩ := abs_add_and_sub_le (h 0) (h 1)
  obtain ⟨h1, h3⟩ := abs_add_and_sub_le (h 2) (h 3)
  exact ⟨h0, h1, h2, h3⟩

/-- An output has at most four times the magnitude of the row. -/
theorem abs_rowTimes_le (h : ∀ k, |u k| ≤ m) (j : Fin 4) : |rowTimes u j| ≤ 4 * m := by
  simp only [abs_le] at *
  have h0 := h 0
  have h1 := h 1
  have h2 := h 2
  have h3 := h 3
  match j with
  | 0 => rw [rowTimes_zero]; omega
  | 1 => rw [rowTimes_one]; omega
  | 2 => rw [rowTimes_two]; omega
  | 3 => rw [rowTimes_three]; omega

/-! ### The butterfly (R91) -/

/-- The butterfly of wrapped integers is their product with A wrapped once: the wrap commutes with `+` and `-`. -/
theorem bfly4_wrap16 (u : Fin 4 → Int) :
    bfly4 (Vec4.ofFn fun k => wrap16 (u k)) = Vec4.ofFn fun j => wrap16 (rowTimes u j) := by
  simp only [bfly4_eq, Vec4.ofFn, rowTimes_zero, rowTimes_one, rowTimes_two, rowTimes_three, wrap16_add, wrap16_sub,
    Vec4.mk.injEq]
  refine ⟨?_, ?_, ?_, ?_⟩ <;> abel

/-- The butterfly of a vector is its product with A wrapped once. -/
theorem bfly4_eq_wrap16_rowTimes (x : Vec4 Word) :
    bfly4 x = Vec4.ofFn fun j => wrap16 (rowTimes (fun k => (x.get k).toInt) j) := by
  rw [← bfly4_wrap16]
  simp only [wrap16_toInt]
  rfl

/-- Settles O6: the butterfly is the product with A wrapped once, written out column by column; the wrap is the identity
on outputs that fit, and those force the temporaries to fit. -/
theorem butterflyIsRowTimesHadamard : Obligations.ButterflyIsRowTimesHadamard := by
  intro x
  have hget (j : Fin 4) : (bfly4 x).get j = wrap16 (rowTimes (fun k => (x.get k).toInt) j) := by
    rw [bfly4_eq_wrap16_rowTimes, Vec4.get_ofFn]
  refine ⟨hget, ?_, fun _ hfit j => ?_, firstLayerFits_of_fits_rowTimes⟩
  · rw [bfly4_eq_wrap16_rowTimes, Vec4.ofFn, rowTimes_zero, rowTimes_one, rowTimes_two, rowTimes_three]
    rfl
  · rw [hget, toInt_wrap16_of_fits (hfit j)]

/-! ### Wrapped matrices and the two passes (R92, R93) -/

/-- An integer matrix wrapped element by element. -/
def IntMat.wrap (X : IntMat) : Mat := Mat.ofFn fun i j => wrap16 (X i j)

@[simp] theorem IntMat.elem_wrap (X : IntMat) (i j : Fin 4) : X.wrap.elem i j = wrap16 (X i j) :=
  Mat.elem_ofFn _ i j

/-- A wrapped element that fits has its exact value. -/
theorem IntMat.vals_wrap_of_fits {X : IntMat} {i j : Fin 4} (h : Fits (X i j)) : X.wrap.vals i j = X i j := by
  rw [Mat.vals, IntMat.elem_wrap, toInt_wrap16_of_fits h]

/-- A matrix is its values wrapped. -/
theorem Mat.wrap_vals (M : Mat) : IntMat.wrap M.vals = M :=
  Mat.ext_elem fun i j => by rw [IntMat.elem_wrap, Mat.vals, wrap16_toInt]

/-- The exact product is associative. -/
theorem IntMat.mul_assoc (X Y Z : IntMat) : IntMat.mul (IntMat.mul X Y) Z = IntMat.mul X (IntMat.mul Y Z) := by
  funext i j
  simp only [IntMat.mul]
  ring

/-- Row `i` of `X·A` depends on row `i` of `X` alone. -/
theorem IntMat.mul_hadamard (X : IntMat) (i j : Fin 4) : IntMat.mul X Config.hadamard i j = rowTimes (X i) j := rfl

/-- Column `j` of `A·X` is column `j` of `X` as a row vector times A, since A is symmetric. -/
theorem IntMat.hadamard_mul (X : IntMat) (i j : Fin 4) :
    IntMat.mul Config.hadamard X i j = rowTimes (fun k => X k j) i := by
  simp only [IntMat.mul, rowTimes, hadamard_symm i, mul_comm]

/-- The row pass multiplies by A on the right, modulo the wrap. -/
theorem rowpassM_wrap (X : IntMat) : rowpassM X.wrap = (IntMat.mul X Config.hadamard).wrap := by
  refine Mat.ext_elem fun i j => ?_
  have hrow : X.wrap.get i = Vec4.ofFn fun k => wrap16 (X i k) := Vec4.get_ofFn _ i
  rw [elem_rowpassM, hrow, bfly4_wrap16, Vec4.get_ofFn, IntMat.elem_wrap, IntMat.mul_hadamard]

/-- The column pass multiplies by A on the left, modulo the wrap. -/
theorem colpassM_wrap (X : IntMat) : colpassM X.wrap = (IntMat.mul Config.hadamard X).wrap := by
  refine Mat.ext_elem fun i j => ?_
  have hcol : X.wrap.transpose.get j = Vec4.ofFn fun k => wrap16 (X k j) := by
    rw [Mat.transpose, Mat.ofFn, Vec4.get_ofFn]
    simp only [IntMat.elem_wrap]
  rw [elem_colpassM, hcol, bfly4_wrap16, Vec4.get_ofFn, IntMat.elem_wrap, IntMat.hadamard_mul]

/-- The row pass of any matrix is its exact product with A wrapped once. -/
theorem rowpassM_eq_wrap (M : Mat) : rowpassM M = (IntMat.mul M.vals Config.hadamard).wrap := by
  rw [← rowpassM_wrap, Mat.wrap_vals]

/-- The column pass of any matrix is the exact product of A with it wrapped once. -/
theorem colpassM_eq_wrap (M : Mat) : colpassM M = (IntMat.mul Config.hadamard M.vals).wrap := by
  rw [← colpassM_wrap, Mat.wrap_vals]

/-- An element of ROWPASSM by the rule's formula. -/
theorem elem_rowpassM_eq_wrap16 (M : Mat) (i j : Fin 4) :
    (rowpassM M).elem i j = wrap16 (IntMat.mul M.vals Config.hadamard i j) := by
  rw [rowpassM_eq_wrap, IntMat.elem_wrap]

/-- An element of COLPASSM by the rule's formula. -/
theorem elem_colpassM_eq_wrap16 (M : Mat) (i j : Fin 4) :
    (colpassM M).elem i j = wrap16 (IntMat.mul Config.hadamard M.vals i j) := by
  rw [colpassM_eq_wrap, IntMat.elem_wrap]

/-- Both passes are the exact product `A·M·A` wrapped once. -/
theorem colpassM_rowpassM_eq_wrap (M : Mat) :
    colpassM (rowpassM M) = (IntMat.mul Config.hadamard (IntMat.mul M.vals Config.hadamard)).wrap := by
  rw [rowpassM_eq_wrap, colpassM_wrap]

/-- The column pass of a matrix is the butterfly of each column. -/
theorem col_colpassM (M : Mat) (j : Fin 4) :
    Vec4.ofFn (fun i => (colpassM M).elem i j) = bfly4 (Vec4.ofFn fun i => M.elem i j) := by
  have hcol : M.transpose.get j = Vec4.ofFn fun i => M.elem i j := Vec4.get_ofFn _ j
  simp only [elem_colpassM, hcol]
  rfl

/-! ### Corner cases of the two passes -/

section

variable {M : Mat} {i : Fin 4}

/-- A zero row stays zero. -/
theorem elem_rowpassM_of_zero_row (h : ∀ k, M.elem i k = 0) (j : Fin 4) : (rowpassM M).elem i j = 0 := by
  have hrow : ∀ k, M.vals i k = 0 := fun k => by rw [Mat.vals, h k]; rfl
  rw [elem_rowpassM_eq_wrap16, IntMat.mul_hadamard, rowTimes_of_zero hrow]
  rfl

/-- A row of equal values leaves the row pass with their sum in column 0, when that fits. -/
theorem vals_rowpassM_of_const_row (h : ∀ k, M.vals i k = v) (hfit : Fits (4 * v)) :
    (rowpassM M).vals i 0 = 4 * v ∧ (rowpassM M).vals i 1 = 0 ∧ (rowpassM M).vals i 2 = 0 ∧
      (rowpassM M).vals i 3 = 0 := by
  obtain ⟨h0, h1, h2, h3⟩ := rowTimes_of_const h
  have hexact {j : Fin 4} {y : Int} (hy : rowTimes (M.vals i) j = y) (hf : Fits y) : (rowpassM M).vals i j = y := by
    rw [Mat.vals, elem_rowpassM_eq_wrap16, IntMat.mul_hadamard, hy, toInt_wrap16_of_fits hf]
  exact ⟨hexact h0 hfit, hexact h1 (by decide), hexact h2 (by decide), hexact h3 (by decide)⟩

/-- A row of magnitude at most `m`, no more than 8191, leaves the row pass exact and of magnitude at most `4m`. -/
theorem vals_rowpassM_of_abs_le (h : ∀ k, |M.vals i k| ≤ m) (hm : m ≤ 8191) (j : Fin 4) :
    (rowpassM M).vals i j = IntMat.mul M.vals Config.hadamard i j ∧ |(rowpassM M).vals i j| ≤ 4 * m := by
  have hbound : |IntMat.mul M.vals Config.hadamard i j| ≤ 4 * m := abs_rowTimes_le h j
  have hexact : (rowpassM M).vals i j = IntMat.mul M.vals Config.hadamard i j := by
    rw [rowpassM_eq_wrap, IntMat.vals_wrap_of_fits (fits_of_abs_le hbound (by omega))]
  exact ⟨hexact, hexact ▸ hbound⟩

/-- A matrix of magnitude at most `m`, no more than 2047, leaves both passes exact and of magnitude at most `16m`. -/
theorem vals_colpassM_rowpassM_of_abs_le (h : ∀ i j, |M.vals i j| ≤ m) (hm : m ≤ 2047) (i j : Fin 4) :
    (colpassM (rowpassM M)).vals i j = IntMat.mul Config.hadamard (IntMat.mul M.vals Config.hadamard) i j ∧
      |(colpassM (rowpassM M)).vals i j| ≤ 16 * m := by
  have hbound : |IntMat.mul Config.hadamard (IntMat.mul M.vals Config.hadamard) i j| ≤ 4 * (4 * m) := by
    rw [IntMat.hadamard_mul]
    exact abs_rowTimes_le (fun k => abs_rowTimes_le (h k) j) i
  have hexact : (colpassM (rowpassM M)).vals i j =
      IntMat.mul Config.hadamard (IntMat.mul M.vals Config.hadamard) i j := by
    rw [colpassM_rowpassM_eq_wrap, IntMat.vals_wrap_of_fits (fits_of_abs_le hbound (by omega))]
  exact ⟨hexact, by rw [hexact]; omega⟩

end

/-! ### The first three stages as one product (R94) -/

/-- The two passes commute: the exact product they wrap is associative. -/
theorem rowpassM_colpassM (M : Mat) : rowpassM (colpassM M) = colpassM (rowpassM M) := by
  rw [colpassM_rowpassM_eq_wrap, colpassM_eq_wrap, rowpassM_wrap, IntMat.mul_assoc]

/-- Stage 1 is the exact difference wrapped. -/
theorem diffM_eq_wrap (R P : Mat) : diffM R P = (exactD R P).wrap :=
  Mat.ext_elem fun i j => by simp only [diffM, Mat.elem_ofFn, IntMat.elem_wrap, sub16, exactD, Mat.vals]

/-- Stages 1 and 2 are the exact product `(R − P)·A` wrapped once. -/
theorem rowpassM_diffM_eq_wrap (R P : Mat) : rowpassM (diffM R P) = (exactE R P).wrap := by
  rw [diffM_eq_wrap, rowpassM_wrap, exactE]

/-- Stages 1 to 3 are the exact product `A·(R − P)·A` wrapped once. -/
theorem stage3_eq_wrap (R P : Mat) : stage3 R P = (exactF R P).wrap := by
  rw [stage3, rowpassM_diffM_eq_wrap, colpassM_wrap, exactF]

namespace Machine

variable {s : State}

/-! ### The stages -/

/-- In turn ROWPASS writes the row pass of W to W, and the sequencer advances. -/
theorem exec_rowpass_in_turn (hb : s.busy = true) (hk : s.stg = 1) :
    exec .rowpass s = .next (s.writeW (rowpassM s.w)).advanceStg :=
  congrArg Host.Outcome.next (State.stageStep_in_turn _ hb hk)

/-- In turn COLPASS writes the column pass of W to W, and the sequencer advances. -/
theorem exec_colpass_in_turn (hb : s.busy = true) (hk : s.stg = 2) :
    exec .colpass s = .next (s.writeW (colpassM s.w)).advanceStg :=
  congrArg Host.Outcome.next (State.stageStep_in_turn _ hb hk)

/-- Two stage steps from the start of a call: W is E. -/
theorem State.iterate_two_of_stg_zero (hk : s.stg = 0) :
    State.afterStage^[2] s = (s.writeW (rowpassM (diffM s.rq s.pq))).advanceStg.advanceStg := by
  have hiter : State.afterStage^[2] s = s.afterStage.afterStage := rfl
  rw [hiter, State.afterStage_of_stg_one (by simp [hk]), State.afterStage_of_stg_zero hk]
  rfl

/-- Three stage steps from the start of a call: W is F. -/
theorem State.iterate_three_of_stg_zero (hk : s.stg = 0) :
    State.afterStage^[3] s = (s.writeW (stage3 s.rq s.pq)).advanceStg.advanceStg.advanceStg := by
  rw [Function.iterate_succ_apply', State.iterate_two_of_stg_zero hk, State.afterStage_of_stg_two (by simp [hk])]
  apply State.ext_fields <;> simp [stage3]

/-- The first three stage steps of a call find it in flight, whatever `DONE` is. -/
theorem State.busy_iterate_of_stg_zero (hb : s.busy = true) (hk : s.stg = 0) :
    ∀ n < 3, (State.afterStage^[n] s).busy = true
  | 0, _ => hb
  | 1, _ => by
    rw [Function.iterate_one, State.afterStage_of_stg_zero hk]
    exact hb
  | 2, _ => by
    rw [State.iterate_two_of_stg_zero hk]
    exact hb

/-! ### The statements settled -/

/-- Settles O14: W is the row pass of W, which is the product with A wrapped once, exact within the bounds. -/
theorem rowpassMultipliesByHadamard : Obligations.RowpassMultipliesByHadamard := by
  refine ⟨decode_encode .rowpass, fun s hb hk => ⟨_, exec_rowpass_in_turn hb hk, Vec4.get_map _ _,
    elem_rowpassM_eq_wrap16 s.w, fun i m hm hrow => ?_, fun i => elem_rowpassM_of_zero_row,
    fun i v => vals_rowpassM_of_const_row, by simp [hk]⟩⟩
  have htemps := abs_temporaries_le hrow
  have hfits {v : Int} (hv : |v| ≤ 2 * m) : Fits v := fits_of_abs_le hv (by omega)
  exact ⟨htemps.imp hfits (.imp hfits (.imp hfits hfits)), htemps, vals_rowpassM_of_abs_le hrow hm⟩

/-- Settles O15: W is the column pass of W, which is the product of A with it wrapped once; both passes are the exact
product while its bound fits, and wrap where it does not. -/
theorem colpassMultipliesByHadamard : Obligations.ColpassMultipliesByHadamard := by
  refine ⟨decode_encode .colpass, fun s hb hk => ⟨_, exec_colpass_in_turn hb hk, col_colpassM s.w,
    elem_colpassM_eq_wrap16 s.w, by simp [hk]⟩, fun M m hm h i j => ?_, fun M h => ?_⟩
  · obtain ⟨-, hE⟩ := vals_rowpassM_of_abs_le (h i) (by omega) j
    exact ⟨hE, vals_colpassM_rowpassM_of_abs_le h hm i j⟩
  · have hvals : M.vals = fun _ _ => 2048 := funext fun i => funext fun j => h i j
    have hF : IntMat.mul Config.hadamard (IntMat.mul M.vals Config.hadamard) 0 0 = 32768 := by
      rw [hvals]
      decide
    refine ⟨hF, ?_⟩
    rw [colpassM_rowpassM_eq_wrap, Mat.vals, IntMat.elem_wrap, hF]
    decide

/-- Settles O35: the steps of the run are the first stage steps of the call, and each pass multiplies by A. -/
theorem stageThreeIsTheProductWrappedOnce : Obligations.StageThreeIsTheProductWrappedOnce := by
  refine ⟨fun s p1 p2 p3 hb hk hr1 hr2 hr3 => ⟨?_, ?_⟩, rowpassM_colpassM, fun R P i j => ?_⟩
  · obtain ⟨p, hrun⟩ := State.runPins_of_in_flight (s := s) (ps := [p1, p2]) (by simp [hr1, hr2])
      fun n hn => State.busy_iterate_of_stg_zero hb hk n (by simp at hn; omega)
    refine ⟨_, hrun, ?_⟩
    simp [State.iterate_two_of_stg_zero hk, hk, rowpassM_diffM_eq_wrap]
  · obtain ⟨p, hrun⟩ := State.runPins_of_in_flight (s := s) (ps := [p1, p2, p3]) (by simp [hr1, hr2, hr3])
      (State.busy_iterate_of_stg_zero hb hk)
    refine ⟨_, hrun, ?_⟩
    simp [State.iterate_three_of_stg_zero hk, hk, stage3_eq_wrap]
  · rw [diffM_eq_wrap, colpassM_wrap, IntMat.elem_wrap]

end Machine

end Sys2Proof
end

section
/-! PROOFS of `43_rounding_divide.md`: the rounding divide by its quotient, remainder and half (R100), as rounding half
away from zero (R102), against the arithmetic shifts (R103), its range (R104), and the stage RDIV (R101). -/

namespace Sys2Proof

variable {v : Word} {m : Int}

/-! ### Quotient, remainder and half (R100) -/

/-- The quotient of an element by 16 has 12 bits. -/
theorem tdiv_sixteen_bounds (v : Word) : -2048 ≤ tdiv v.toInt 16 ∧ tdiv v.toInt 16 ≤ 2047 := by
  have hv : Fits v.toInt := fits_toInt v
  rw [tdiv_eq_floor]
  split <;> omega

/-- The remainder by 16 has magnitude 15 at most. -/
theorem trem_sixteen_bounds (a : Int) : -15 ≤ trem a 16 ∧ trem a 16 ≤ 15 := by
  have hlt : |trem a 16| < 16 := abs_trem_lt a (by decide)
  obtain ⟨hlo, hhi⟩ := abs_lt.mp hlt
  omega

/-- Half of a remainder by 16 is nonzero, and then ±1, from magnitude 8 on. -/
theorem tdiv_eight_table {r : Int} (hr : -15 ≤ r ∧ r ≤ 15) :
    (r ≤ -8 → tdiv r 8 = -1) ∧ (-7 ≤ r → r ≤ 7 → tdiv r 8 = 0) ∧ (8 ≤ r → tdiv r 8 = 1) := by
  rw [tdiv_eq_floor]
  split <;> omega

/-- `RDIV16` is the quotient plus the half of the remainder: their sum is an `int16`. -/
theorem toInt_rdiv16_eq_tdiv_add_tdiv (v : Word) :
    (rdiv16 v).toInt = tdiv v.toInt 16 + tdiv (trem v.toInt 16) 8 := by
  have hq := tdiv_sixteen_bounds v
  have hh := tdiv_eight_table (trem_sixteen_bounds v.toInt)
  have hfits : Fits (tdiv v.toInt 16 + tdiv (trem v.toInt 16) 8) := by omega
  exact toInt_enc16_of_fits hfits

/-- Settles O7: the remainder has magnitude 15 at most, and its half is read off the table. -/
theorem roundingDivideByQuotientAndRemainder : Obligations.RoundingDivideByQuotientAndRemainder := by
  intro v
  have hr := trem_sixteen_bounds v.toInt
  exact ⟨toInt_rdiv16_eq_tdiv_add_tdiv v, tdiv_sixteen_bounds v, rfl, hr, trem_eq_zero_or_sign_eq _ _,
    tdiv_eight_table hr⟩

/-! ### Rounding half away from zero (R102) -/

/-- On values that are not negative: add half the divisor and divide with floor. -/
theorem toInt_rdiv16_of_nonneg (h : 0 ≤ v.toInt) : (rdiv16 v).toInt = (v.toInt + 8) / 16 := by
  rw [toInt_rdiv16, if_pos h]

/-- On negative values: the same for the magnitude, negated. -/
theorem toInt_rdiv16_of_neg (h : v.toInt < 0) : (rdiv16 v).toInt = -((-v.toInt + 8) / 16) := by
  rw [toInt_rdiv16, if_neg (not_le.mpr h)]

/-- The rounded quotient by 16 of an integer that is not negative, as one floor division. -/
theorem rhafz_div_sixteen_of_nonneg {n : Int} (h : 0 ≤ n) : rhafz ((n : ℚ) / 16) = (n + 8) / 16 := by
  have hquot : (n : ℚ) / 16 + 1 / 2 = ((n + 8 : ℤ) : ℚ) / ((16 : ℕ) : ℚ) := by
    push_cast
    ring
  rw [rhafz_of_nonneg (by positivity), hquot, Rat.floor_intCast_div_natCast]
  rfl

/-- `RDIV16` rounds the quotient by 16 half away from zero: both sides are the mirror image, for a negative value, of
what they are for its magnitude. -/
theorem toInt_rdiv16_eq_rhafz (v : Word) : (rdiv16 v).toInt = rhafz ((v.toInt : ℚ) / 16) := by
  rcases le_or_gt 0 v.toInt with h | h
  · rw [toInt_rdiv16_of_nonneg h, rhafz_div_sixteen_of_nonneg h]
  · have hmirror := rhafz_div_sixteen_of_nonneg (n := -v.toInt) (by omega)
    rw [Int.cast_neg, neg_div, rhafz_neg] at hmirror
    rw [toInt_rdiv16_of_neg h, ← hmirror, neg_neg]

/-- The closed form with the sign in front. -/
theorem toInt_rdiv16_eq_sign_mul (v : Word) : (rdiv16 v).toInt = v.toInt.sign * ((|v.toInt| + 8) / 16) := by
  rcases lt_trichotomy v.toInt 0 with h | h | h
  · rw [toInt_rdiv16_of_neg h, Int.sign_eq_neg_one_of_neg h, abs_of_neg h, neg_one_mul]
  · rw [toInt_rdiv16_of_nonneg h.ge, h]
    rfl
  · rw [toInt_rdiv16_of_nonneg h.le, Int.sign_eq_one_of_pos h, abs_of_pos h, one_mul]

/-- Negating an element negates its value, the lowest one excepted. -/
theorem toInt_neg_of_ne_lowest (h : v.toInt ≠ -32768) : (-v).toInt = -v.toInt :=
  BitVec.toInt_neg_of_ne_intMin fun hv => h (by rw [hv]; rfl)

/-- `RDIV16` is odd, the lowest element excepted. -/
theorem toInt_rdiv16_neg (h : v.toInt ≠ -32768) : (rdiv16 (-v)).toInt = -(rdiv16 v).toInt := by
  simp only [toInt_rdiv16_eq_sign_mul, toInt_neg_of_ne_lowest h, Int.sign_neg, abs_neg, neg_mul]

/-- Settles O8, from the two closed forms by the sign of the value. -/
theorem roundingDivideIsHalfAwayFromZero : Obligations.RoundingDivideIsHalfAwayFromZero := fun v =>
  ⟨toInt_rdiv16_eq_rhafz v, toInt_rdiv16_eq_sign_mul v, toInt_rdiv16_of_nonneg, toInt_rdiv16_of_neg, toInt_rdiv16_neg⟩

/-! ### The arithmetic shifts (R103) -/

/-- The arithmetic shift by 4 is floor division by 16. -/
theorem toInt_sshiftRight_four (v : Word) : (v.sshiftRight 4).toInt = v.toInt / 16 := by
  rw [BitVec.toInt_sshiftRight, Int.shiftRight_eq_div_pow]
  rfl

/-- Where floor division differs from `RDIV16`: at the upper half of the residues, the tie among them only for values
that are not negative. -/
theorem ediv_sixteen_ne_rdiv16_iff (v : Word) : v.toInt / 16 ≠ (rdiv16 v).toInt ↔
    (0 ≤ v.toInt ∧ 8 ≤ v.toInt % 16) ∨ (v.toInt < 0 ∧ 9 ≤ v.toInt % 16) := by
  rcases le_or_gt 0 v.toInt with h | h
  · rw [toInt_rdiv16_of_nonneg h]
    omega
  · rw [toInt_rdiv16_of_neg h]
    omega

/-- Rounding half up differs from `RDIV16` at the negative ties alone. -/
theorem add_eight_ediv_sixteen_ne_rdiv16_iff (v : Word) :
    (v.toInt + 8) / 16 ≠ (rdiv16 v).toInt ↔ v.toInt < 0 ∧ v.toInt % 16 = 8 := by
  rcases le_or_gt 0 v.toInt with h | h
  · rw [toInt_rdiv16_of_nonneg h]
    omega
  · rw [toInt_rdiv16_of_neg h]
    omega

/-- Settles O9: the shift is floor division, and the two are compared with `RDIV16` by the sign of the value. -/
theorem arithmeticShiftIsNotRoundingDivide : Obligations.ArithmeticShiftIsNotRoundingDivide := by
  refine fun v => ⟨toInt_sshiftRight_four v, ?_, add_eight_ediv_sixteen_ne_rdiv16_iff v⟩
  rw [← ediv_sixteen_ne_rdiv16_iff, ← toInt_sshiftRight_four, ne_eq, ne_eq, BitVec.toInt_inj]

/-! ### The range (R104) -/

/-- A value of magnitude `16m` at most gives a result of magnitude `m` at most. -/
theorem abs_toInt_rdiv16_le (h : |v.toInt| ≤ 16 * m) : |(rdiv16 v).toInt| ≤ m := by
  rw [abs_le] at *
  rw [toInt_rdiv16]
  split <;> omega

/-- Every result has magnitude 2048 at most. -/
theorem toInt_rdiv16_bounds (v : Word) : -2048 ≤ (rdiv16 v).toInt ∧ (rdiv16 v).toInt ≤ 2048 := by
  have hv : Fits v.toInt := fits_toInt v
  exact abs_le.mp (abs_toInt_rdiv16_le (abs_le.mpr (by omega)))

/-- The lower bound is reached at the lowest element. -/
theorem toInt_rdiv16_of_lowest (h : v.toInt = -32768) : (rdiv16 v).toInt = -2048 := by
  rw [toInt_rdiv16_of_neg (by omega), h]
  rfl

/-- The upper bound is reached from 32760 on. -/
theorem toInt_rdiv16_of_ge (h : 32760 ≤ v.toInt) : (rdiv16 v).toInt = 2048 := by
  have hv : Fits v.toInt := fits_toInt v
  rw [toInt_rdiv16_of_nonneg (by omega)]
  omega

/-- An element of RDIVM is `RDIV16` of that element. -/
theorem vals_rdivM (M : Mat) (i j : Fin 4) : (rdivM M).vals i j = (rdiv16 (M.elem i j)).toInt :=
  congrArg BitVec.toInt (elem_rdivM M i j)

variable {R P : Mat}

/-- On the byte scale the stage-3 result has magnitude 4080 at most: 16 times that of the difference. -/
theorem abs_vals_stage3_of_byteScale (hR : ByteScale R) (hP : ByteScale P) (i j : Fin 4) :
    |(stage3 R P).vals i j| ≤ 16 * 255 := by
  have hD : ∀ i j, |(diffM R P).vals i j| ≤ 255 := fun i j => by
    rw [vals_diffM_of_byteScale hR hP, abs_le]
    exact exactD_bounds_of_byteScale hR hP i j
  exact (vals_colpassM_rowpassM_of_abs_le hD (by decide) i j).2

/-- On the byte scale the transform has magnitude 255 at most. -/
theorem abs_vals_transform_of_byteScale (hR : ByteScale R) (hP : ByteScale P) (i j : Fin 4) :
    |(transform R P).vals i j| ≤ 255 := by
  rw [transform, vals_rdivM]
  exact abs_toInt_rdiv16_le (abs_vals_stage3_of_byteScale hR hP i j)

/-- Settles O10: the magnitude divides by 16, and the passes multiply that of the difference by 16. -/
theorem roundingDivideRange : Obligations.RoundingDivideRange := by
  refine ⟨toInt_rdiv16_bounds, fun v => toInt_rdiv16_of_lowest, fun v => toInt_rdiv16_of_ge, fun M i j => ?_,
    fun R P hR hP i j => ⟨abs_le.mp (abs_vals_stage3_of_byteScale hR hP i j),
      abs_le.mp (abs_vals_transform_of_byteScale hR hP i j)⟩⟩
  have hbounds := toInt_rdiv16_bounds (M.elem i j)
  rw [vals_rdivM]
  omega

/-! ### The stage (R101) -/

namespace Machine

/-- In turn RDIV writes RDIVM of W to C and ends the call, and the sequencer advances. -/
theorem exec_rdiv_in_turn {s : State} (hb : s.busy = true) (hk : s.stg = 3) :
    exec .rdiv s = .next ((s.writeC (rdivM s.w)).endCall).advanceStg :=
  congrArg Host.Outcome.next (State.stageStep_in_turn _ hb hk)

/-- Settles O16: C is RDIVM of W, whose elements are the rounded quotients by 16. -/
theorem rdivDeliversRoundedQuotients : Obligations.RdivDeliversRoundedQuotients :=
  ⟨decode_encode .rdiv, fun s hb hk => ⟨_, exec_rdiv_in_turn hb hk,
    fun i j => ⟨elem_rdivM s.w i j, (vals_rdivM s.w i j).trans (toInt_rdiv16_eq_rhafz _)⟩, by simp [hk]⟩⟩

end Machine

end Sys2Proof
end

section
/-! PROOFS of `44_properties.md`: the range precondition (R110, R111), rounding (R112, R115), the round trip and the
basis functions (R113, R119), history (R114), overflow (R117) and linearity (R118). -/

namespace Sys2Proof

variable {R P : Mat} {u : Fin 4 → Int} {c m : Int} {i j : Fin 4}

/-! ### The exact matrices and the stages -/

/-- Column `j` of the exact F is column `j` of the exact E times A. -/
theorem exactF_eq_rowTimes (R P : Mat) (i j : Fin 4) : exactF R P i j = rowTimes (fun k => exactE R P k j) i :=
  IntMat.hadamard_mul _ i j

/-- An element of the stage-3 result is the exact one wrapped once (R94). -/
theorem elem_stage3 (R P : Mat) (i j : Fin 4) : (stage3 R P).elem i j = wrap16 (exactF R P i j) := by
  rw [stage3_eq_wrap, IntMat.elem_wrap]

/-- An element of the transform is the exact F wrapped once and divided (R117). -/
theorem elem_transform (R P : Mat) (i j : Fin 4) :
    (transform R P).elem i j = rdiv16 (wrap16 (exactF R P i j)) := by
  rw [transform, elem_rdivM, elem_stage3]

/-- Its value is the wrapped F rounded. -/
theorem vals_transform (R P : Mat) (i j : Fin 4) :
    (transform R P).vals i j = rhafz (((wrap16 (exactF R P i j)).toInt : ℚ) / 16) := by
  rw [Mat.vals, elem_transform, toInt_rdiv16_eq_rhafz]

/-- Where the exact F fits, the transform is the right value. -/
theorem vals_transform_of_fits (h : Fits (exactF R P i j)) :
    (transform R P).vals i j = rhafz ((exactF R P i j : ℚ) / 16) := by
  rw [vals_transform, toInt_wrap16_of_fits h]

/-! ### The range precondition (R110, R111) -/

/-- Outputs that fit make the inputs fit: each input is half the sum or the difference of two temporaries. -/
theorem fits_of_fits_rowTimes (h : ∀ j, Fits (rowTimes u j)) (k : Fin 4) : Fits (u k) := by
  obtain ⟨hadd01, hadd23, hsub01, hsub23⟩ := firstLayerFits_of_fits_rowTimes h
  match k with
  | 0 => omega
  | 1 => omega
  | 2 => omega
  | 3 => omega

/-- The sixteen exact outputs decide the precondition: the other 64 values fit when they do. -/
theorem inRange_iff_fits_exactF (R P : Mat) : InRange R P ↔ ∀ i j, Fits (exactF R P i j) := by
  refine ⟨fun ⟨_, _, _, _, hF⟩ => hF, fun hF => ?_⟩
  have hcol : ∀ j i, Fits (rowTimes (fun k => exactE R P k j) i) := fun j i => exactF_eq_rowTimes R P i j ▸ hF i j
  have hE : ∀ i j, Fits (exactE R P i j) := fun i j => fits_of_fits_rowTimes (hcol j) i
  exact ⟨fun i => fits_of_fits_rowTimes (hE i), fun i => firstLayerFits_of_fits_rowTimes (hE i), hE,
    fun j => firstLayerFits_of_fits_rowTimes (hcol j), hF⟩

/-- The row pass multiplies a bound on the differences by 4. -/
theorem abs_exactE_le (h : ∀ i j, |exactD R P i j| ≤ m) (i j : Fin 4) : |exactE R P i j| ≤ 4 * m :=
  abs_rowTimes_le (h i) j

/-- Both passes multiply it by 16. -/
theorem abs_exactF_le (h : ∀ i j, |exactD R P i j| ≤ m) (i j : Fin 4) : |exactF R P i j| ≤ 4 * (4 * m) := by
  rw [exactF_eq_rowTimes]
  exact abs_rowTimes_le (fun k => abs_exactE_le h k j) i

/-- Differences of magnitude 2047 at most are in range. -/
theorem inRange_of_abs_exactD_le (h : ∀ i j, |exactD R P i j| ≤ m) (hm : m ≤ 2047) : InRange R P :=
  (inRange_iff_fits_exactF R P).mpr fun i j => fits_of_abs_le (abs_exactF_le h i j) (by omega)

/-- On the byte scale the differences have magnitude 255 at most. -/
theorem abs_exactD_le_of_byteScale (hR : ByteScale R) (hP : ByteScale P) (i j : Fin 4) : |exactD R P i j| ≤ 255 :=
  abs_le.mpr (exactD_bounds_of_byteScale hR hP i j)

/-- Byte-scale operands are in range. -/
theorem inRange_of_byteScale (hR : ByteScale R) (hP : ByteScale P) : InRange R P :=
  inRange_of_abs_exactD_le (abs_exactD_le_of_byteScale hR hP) (by decide)

/-- Equal differences all add up in element `(0, 0)`. -/
theorem exactF_zero_zero_of_const (h : ∀ i j, exactD R P i j = c) : exactF R P 0 0 = 4 * (4 * c) := by
  rw [exactF_eq_rowTimes]
  exact (rowTimes_of_const fun k => (rowTimes_of_const (h k)).1).1

/-! ### Products with A (R5) -/

/-- The exact product as a sum over the inner index. -/
theorem IntMat.mul_eq_sum (X Y : IntMat) (i j : Fin 4) : IntMat.mul X Y i j = ∑ k, X i k * Y k j := by
  rw [Fin.sum_univ_four]
  rfl

/-- Multiplying by A twice on the right multiplies by 4. -/
theorem IntMat.mul_hadamard_hadamard (X : IntMat) (i j : Fin 4) :
    IntMat.mul (IntMat.mul X Config.hadamard) Config.hadamard i j = 4 * X i j := by
  rw [IntMat.mul_assoc, IntMat.mul_eq_sum]
  simp [hadamard_mul_self, mul_comm]

/-- Multiplying by A twice on the left multiplies by 4. -/
theorem IntMat.hadamard_hadamard_mul (X : IntMat) (i j : Fin 4) :
    IntMat.mul Config.hadamard (IntMat.mul Config.hadamard X) i j = 4 * X i j := by
  rw [← IntMat.mul_assoc, IntMat.mul_eq_sum]
  simp [hadamard_mul_self]

/-- The passes undo the forward transform, up to the factor 16. -/
theorem exactF_of_exactD_eq_forward {X : IntMat}
    (h : ∀ i j, exactD R P i j = IntMat.mul Config.hadamard (IntMat.mul X Config.hadamard) i j) (i j : Fin 4) :
    exactF R P i j = 16 * X i j := by
  have hD : exactD R P = IntMat.mul Config.hadamard (IntMat.mul X Config.hadamard) :=
    funext fun i => funext fun j => h i j
  rw [exactF, exactE, hD, IntMat.mul_assoc, IntMat.hadamard_hadamard_mul, IntMat.mul_hadamard_hadamard]
  ring

/-- The exact F negates when the operands change places. -/
theorem exactF_swap (R P : Mat) (i j : Fin 4) : exactF P R i j = -exactF R P i j := by
  simp only [exactF, exactE, exactD, IntMat.mul]
  ring

/-- The exact F is additive in the difference. -/
theorem exactF_of_exactD_add {R₁ P₁ R₂ P₂ : Mat} (h : ∀ i j, exactD R P i j = exactD R₁ P₁ i j + exactD R₂ P₂ i j)
    (i j : Fin 4) : exactF R P i j = exactF R₁ P₁ i j + exactF R₂ P₂ i j := by
  simp only [exactF, exactE, IntMat.mul, h]
  ring

/-! ### Impulses and basis functions (R115, R119) -/

@[simp] theorem vals_zeroMat (i j : Fin 4) : zeroMat.vals i j = 0 := by
  simp [Mat.vals, zeroMat]

@[simp] theorem exactD_zeroMat (R : Mat) (i j : Fin 4) : exactD R zeroMat i j = R.vals i j := by
  rw [exactD, vals_zeroMat, sub_zero]

theorem vals_impulse (a b : Fin 4) (v : Word) (i j : Fin 4) :
    (impulse a b v).vals i j = if i = a ∧ j = b then v.toInt else 0 := by
  simp [Mat.vals, impulse, apply_ite BitVec.toInt]

/-- An impulse between two factors A is a column of A times a row of A. -/
theorem hadamard_impulse_hadamard (a b : Fin 4) (v : Word) (i j : Fin 4) :
    IntMat.mul Config.hadamard (IntMat.mul (impulse a b v).vals Config.hadamard) i j =
      Config.hadamard i a * Config.hadamard b j * v.toInt := by
  simp [IntMat.mul_eq_sum, vals_impulse, ite_and, mul_assoc, mul_comm]

/-- The exact F of an impulse. -/
theorem exactF_impulse (a b : Fin 4) (v : Word) (i j : Fin 4) :
    exactF (impulse a b v) zeroMat i j = Config.hadamard i a * Config.hadamard b j * v.toInt := by
  have hD : exactD (impulse a b v) zeroMat = (impulse a b v).vals := funext fun i => funext fun j => exactD_zeroMat _ i j
  rw [exactF, exactE, hD, hadamard_impulse_hadamard]

/-- The entries of A have magnitude 1. -/
theorem abs_hadamard (i j : Fin 4) : |Config.hadamard i j| = 1 :=
  (abs_eq zero_le_one).mpr (hadamard_entry i j)

/-- The product of two entries of A is a sign again. -/
theorem hadamard_mul_hadamard (i a b j : Fin 4) :
    Config.hadamard i a * Config.hadamard b j = 1 ∨ Config.hadamard i a * Config.hadamard b j = -1 :=
  (abs_eq zero_le_one).mp (by rw [abs_mul, abs_hadamard, abs_hadamard, one_mul])

/-- The elements of a basis function, whose amplitude is an `int16`. -/
theorem vals_basisMat (hm : |m| ≤ 32767) (a b i j : Fin 4) :
    (basisMat a b m).vals i j = m * Config.hadamard a i * Config.hadamard b j := by
  have habs : |m * Config.hadamard a i * Config.hadamard b j| = |m| := by
    simp only [abs_mul, abs_hadamard, mul_one]
  rw [Mat.vals, basisMat, Mat.elem_ofFn, toInt_enc16_of_fits (fits_of_abs_le habs.le hm)]

/-- A basis function is the forward transform of an impulse. -/
theorem vals_basisMat_eq_forward (hm : |m| ≤ 32767) (a b i j : Fin 4) : (basisMat a b m).vals i j =
    IntMat.mul Config.hadamard (IntMat.mul (impulse a b (enc16 m)).vals Config.hadamard) i j := by
  rw [vals_basisMat hm, hadamard_impulse_hadamard, toInt_enc16_of_fits (fits_of_abs_le hm le_rfl), hadamard_symm a i]
  ring

/-! ### Division by 16 and rounding -/

/-- A multiple of 16 is divided without rounding. -/
theorem toInt_rdiv16_of_sixteen_mul (hc : -2048 ≤ c ∧ c ≤ 2047) : (rdiv16 (wrap16 (16 * c))).toInt = c := by
  rw [toInt_rdiv16, toInt_wrap16_of_fits (by omega)]
  split <;> omega

/-- An exact F of `16c` gives `c`. -/
theorem vals_transform_of_exactF_eq (h : exactF R P i j = 16 * c) (hc : -2048 ≤ c ∧ c ≤ 2047) :
    (transform R P).vals i j = c := by
  rw [Mat.vals, elem_transform, h, toInt_rdiv16_of_sixteen_mul hc]

/-- Rounding after a shift by an integer is the shifted rounding to within one: each is a nearest integer. -/
theorem abs_rhafz_sub_intCast_le (x : ℚ) (k : ℤ) : |rhafz (x - k) - (rhafz x - k)| ≤ 1 := by
  have hshifted := abs_le.mp (abs_rhafz_sub_le (x - k))
  have hplain := abs_le.mp (abs_rhafz_sub_le x)
  have hcast : |((rhafz (x - k) - (rhafz x - k) : ℤ) : ℚ)| ≤ 1 := by
    push_cast
    rw [abs_le]
    constructor <;> linarith
  exact_mod_cast hcast

/-- The wrap takes off a multiple of 65536, which is not zero where the value does not fit. -/
theorem exists_toInt_wrap16_eq_sub {v : Int} (h : ¬Fits v) : ∃ m : Int, m ≠ 0 ∧ (wrap16 v).toInt = v - 65536 * m := by
  refine ⟨(v + 32768) / 65536, by omega, ?_⟩
  rw [toInt_wrap16]
  omega

/-- An F that is off by `65536m` gives a transform that is off by `4096m` to within one. -/
theorem abs_vals_transform_sub_le (h : (wrap16 (exactF R P i j)).toInt = exactF R P i j - 65536 * m) :
    |(transform R P).vals i j - (rhafz ((exactF R P i j : ℚ) / 16) - 4096 * m)| ≤ 1 := by
  have hquot : ((exactF R P i j - 65536 * m : ℤ) : ℚ) / 16 = (exactF R P i j : ℚ) / 16 - (4096 * m : ℤ) := by
    push_cast
    ring
  rw [vals_transform, h, hquot]
  exact abs_rhafz_sub_intCast_le _ _

/-! ### Linearity of stages 1 to 3 (R118) -/

/-- The wrap commutes with negation. -/
theorem wrap16_neg (v : Int) : wrap16 (-v) = -wrap16 v := by
  simp only [wrap16_eq_ofInt, BitVec.ofInt_neg]

/-- Stages 1 to 3 see the operands through their wrapped difference alone. -/
theorem stage3_congr {R' P' : Mat} (h : ∀ i j, wrap16 (exactD R P i j) = wrap16 (exactD R' P' i j)) :
    stage3 R P = stage3 R' P' := by
  have hD : diffM R P = diffM R' P' := by
    rw [diffM_eq_wrap, diffM_eq_wrap]
    exact Mat.ext_elem fun i j => by rw [IntMat.elem_wrap, IntMat.elem_wrap, h]
  rw [stage3, stage3, hD]

/-- Adding one matrix to both operands leaves the stage-3 result. -/
theorem stage3_of_add_same {R' P' K : Mat} (hR : ∀ i j, R'.vals i j = R.vals i j + K.vals i j)
    (hP : ∀ i j, P'.vals i j = P.vals i j + K.vals i j) : stage3 R' P' = stage3 R P :=
  stage3_congr fun i j => by rw [exactD, exactD, hR, hP, add_sub_add_right_eq_sub]

/-! ### The statements settled -/

/-- Settles O42: each stage is the exact matrix wrapped once, and the wrap is the identity in range. -/
theorem inRangeMeansNoWrap : Obligations.InRangeMeansNoWrap := by
  intro R P ⟨hD, _, hE, _, hF⟩ i j
  rw [diffM_eq_wrap, rowpassM_wrap, stage3_eq_wrap]
  exact ⟨IntMat.vals_wrap_of_fits (hD i j), IntMat.vals_wrap_of_fits (hE i j), IntMat.vals_wrap_of_fits (hF i j)⟩

/-- Settles O43: each pass multiplies a bound by 4 and its first layer by 2, and the sixteen outputs decide. -/
theorem sufficientConditionsForInRange : Obligations.SufficientConditionsForInRange := by
  refine ⟨fun R P hR hP => ⟨inRange_of_byteScale hR hP, fun i j => ?_⟩,
    fun R P h => ⟨inRange_of_abs_exactD_le h le_rfl, fun i j => ⟨abs_exactE_le h i j, abs_exactF_le h i j⟩⟩,
    fun R P h => ?_, inRange_iff_fits_exactF⟩
  · have hD := abs_exactD_le_of_byteScale hR hP
    have hE := abs_exactE_le hD
    obtain ⟨hrow₁, hrow₂, hrow₃, hrow₄⟩ := abs_temporaries_le (hD i)
    exact ⟨hD i j, hE i j, abs_exactF_le hD i j, hrow₁, hrow₂, hrow₃, hrow₄, abs_temporaries_le fun k => hE k j⟩
  · have hF : exactF R P 0 0 = 32768 := exactF_zero_zero_of_const h
    refine ⟨hF, fun hin => ?_⟩
    have hfit := (inRange_iff_fits_exactF R P).mp hin 0 0
    omega

/-- Settles O44: in range the wrap before the division is the identity. -/
theorem transformIsTheRoundedProduct : Obligations.TransformIsTheRoundedProduct := by
  have hround : ∀ R P : Mat, InRange R P → ∀ i j,
      (transform R P).vals i j = rhafz ((exactF R P i j : ℚ) / 16) :=
    fun R P h i j => vals_transform_of_fits ((inRange_iff_fits_exactF R P).mp h i j)
  exact ⟨hround, fun R P hR hP => hround R P (inRange_of_byteScale hR hP)⟩

/-- Settles O45: the exact F is `16·C0`, which fits and is divided without rounding. -/
theorem roundTripRecoversCoefficients : Obligations.RoundTripRecoversCoefficients := by
  intro R P C0 hforward hbounds
  have hF : ∀ i j, exactF R P i j = 16 * C0.vals i j :=
    exactF_of_exactD_eq_forward fun i j => by rw [exactD, hforward, add_sub_cancel_right]
  refine ⟨(inRange_iff_fits_exactF R P).mpr fun i j => ?_, Mat.ext_elem fun i j => BitVec.eq_of_toInt_eq ?_⟩
  · have hC := hbounds i j
    rw [hF]
    omega
  · exact vals_transform_of_exactF_eq (hF i j) (hbounds i j)

/-- Settles O46: the exact F of an impulse is the element times two entries of A, whose product is a sign. -/
theorem roundingCasesThroughTheCall : Obligations.RoundingCasesThroughTheCall := by
  refine ⟨by decide, fun a b v i j => ⟨?_, by rw [elem_transform, exactF_impulse]⟩⟩
  rw [elem_stage3, exactF_impulse]
  rcases hadamard_mul_hadamard i a b j with hsign | hsign
  · left
    rw [hsign, one_mul, wrap16_toInt]
  · right
    rw [hsign, neg_one_mul, wrap16_neg, wrap16_toInt]

/-- Settles O47: an element that does not fit is stored off by a multiple of 65536, and the division keeps it off. -/
theorem overflowGivesTheWrappedResult : Obligations.OverflowGivesTheWrappedResult := by
  refine fun R P => ⟨elem_transform R P, fun i j hfit => ?_, fun i j => vals_transform_of_fits, fun hin => ?_⟩
  · obtain ⟨m, hm, hwrap⟩ := exists_toInt_wrap16_eq_sub hfit
    have hoff := abs_vals_transform_sub_le hwrap
    refine ⟨m, hm, by rw [Mat.vals, elem_stage3, hwrap], hoff, fun heq => ?_⟩
    rw [heq, sub_sub_cancel, abs_le] at hoff
    omega
  · obtain ⟨i, hi⟩ := not_forall.mp (mt (inRange_iff_fits_exactF R P).mpr hin)
    exact ⟨i, not_forall.mp hi⟩

/-- Settles O48: the exact F is linear in the difference, and the wrap keeps sums; the rounding of `8` to `1` does not
add up to that of `16`. -/
theorem stagesOneToThreeAreLinear : Obligations.StagesOneToThreeAreLinear := by
  refine ⟨fun R P R' P' => stage3_congr, fun R P i j => ?_, fun R P R' P' K hR hP => ?_,
    fun R₁ P₁ R₂ P₂ R P hR hP i j => ?_, impulse 0 0 8, impulse 0 0 8, impulse 0 0 16, by decide, 0, 0, by decide⟩
  · rw [elem_stage3, elem_stage3, exactF_swap P R, wrap16_neg]
  · have hstage := stage3_of_add_same hR hP
    exact ⟨hstage, congrArg rdivM hstage⟩
  · have hD : ∀ i j, exactD R P i j = exactD R₁ P₁ i j + exactD R₂ P₂ i j := fun i j => by
      simp only [exactD, hR, hP, add_sub_add_comm]
    simp only [Mat.vals, wrap16_add, wrap16_toInt, elem_stage3, exactF_of_exactD_add hD]

/-- Settles O49: a basis function is the forward transform of an impulse, and the round trip recovers that. -/
theorem basisFunctionGivesOneCoefficient : Obligations.BasisFunctionGivesOneCoefficient := by
  intro a b m hm i j
  have hbound := abs_le.mp hm
  have hC : (impulse a b (enc16 m)).vals i j = if i = a ∧ j = b then m else 0 := by
    rw [vals_impulse, toInt_enc16_of_fits (by omega)]
  have hF : exactF (basisMat a b m) zeroMat i j = 16 * (impulse a b (enc16 m)).vals i j :=
    exactF_of_exactD_eq_forward (fun i j => by rw [exactD_zeroMat, vals_basisMat_eq_forward (by omega)]) i j
  rw [hC] at hF
  exact vals_transform_of_exactF_eq hF (by split <;> omega)

namespace Machine

/-- Settles O39: after the accepted START the two engines are indistinguishable, and they stay so. -/
theorem historyNeverMatters : Obligations.HistoryNeverMatters := by
  intro p ps s t hs ht hr hstart
  have hstep {u : State} (hu : u.busy = false) : step (u.drive p) = .next (u.drive p).acceptStart :=
    step_of_start hr hu hstart
  have haccepted : (s.drive p).acceptStart.Indist (t.drive p).acceptStart := State.indist_acceptStart rfl
  obtain ⟨s', t', hs', ht', h⟩ := haccepted.runPins ps
  exact ⟨s', t', (State.runPins_cons (hstep hs)).trans hs', (State.runPins_cons (hstep ht)).trans ht', h, h.cOut_eq⟩

end Machine

end Sys2Proof
end

section
/-! PROOFS of `60_exceptions.md`: nothing ever stops (R125), and the order of precedence of reset, the stage step and
START (R128). -/

namespace Sys2Proof

/-! ### Which operations the two decoders give (R57) -/

/-- The operation of a decoded word is the one decoded. -/
@[simp] theorem accepted_eq_some_iff {d : Except DecodeError Instr} {i : Instr} : accepted d = some i ↔ d = .ok i := by
  cases d <;> simp [accepted]

/-- START is the only operation of format CMD. -/
theorem encode_fst_eq_cmd_iff (i : Instr) : (encode i).1 = .cmd ↔ i = .start := by
  cases i <;> simp [encode]

namespace Machine

variable {s : State} {i : Instr}

/-! ### Nothing stops (R125) -/

/-- Every operation answers a next state. -/
theorem exists_exec (i : Instr) (s : State) : ∃ t, exec i s = .next t := by
  cases i <;> exact ⟨_, rfl⟩

/-! ### What is enabled (R128) -/

/-- The port is looked at exactly when no call is in flight. -/
theorem State.codeWord_fst_eq_cmd_iff (s : State) : s.codeWord.1 = .cmd ↔ s.busy = false := by
  cases hb : s.busy <;> simp [State.codeWord, hb]

/-- The code word of the operation that is enabled is the one looked at. -/
theorem State.encode_of_fetch (h : s.fetch = some i) : encode i = s.codeWord :=
  encode_of_decode (accepted_eq_some_iff.mp h)

/-- What is enabled with no call in flight is START, and only then. -/
theorem State.eq_start_iff_of_fetch (h : s.fetch = some i) : i = .start ↔ s.busy = false := by
  rw [← encode_fst_eq_cmd_iff, State.encode_of_fetch h, State.codeWord_fst_eq_cmd_iff]

/-- Stage 4 ends the call. -/
theorem State.afterStage_busy_of_last (hk : s.stg = 3) : s.afterStage.busy = false := by
  rw [State.afterStage_of_stg_three hk]
  rfl

/-- A command presented during stage 4 and still there afterwards is accepted by the next step. -/
theorem step_afterStage_of_last (hr : s.pins.rst = false) (hk : s.stg = 3) (hs : s.pins.start = true) :
    step s.afterStage = .next s.afterStage.acceptStart :=
  step_of_start (by rwa [State.afterStage_pins]) (State.afterStage_busy_of_last hk) (by rwa [State.afterStage_pins])

/-! ### The statements settled -/

/-- Settles O24: reset, the stage step and the accepted START are what the step is in the three cases, and the format of
the code word looked at tells START from the stage operations. -/
theorem resetThenStageThenStart : Obligations.ResetThenStageThenStart := by
  refine ⟨fun s hr => ⟨_, step_of_rst hr, rfl, rfl, rfl, rfl⟩, fun s hr hb => ?_,
    fun s hr hb hs => ⟨_, step_of_start hr hb hs, rfl, rfl, rfl, rfl, rfl⟩, fun s i h => State.eq_start_iff_of_fetch h⟩
  refine ⟨s.afterStage, step_of_busy hr hb, s.toNat_stg_iterate 1, s.afterStage_rq, s.afterStage_pq, fun hk => ?_⟩
  refine ⟨State.afterStage_busy_of_last hk, fun hs => ⟨_, step_afterStage_of_last hr hk hs, rfl, rfl, ?_, ?_⟩⟩ <;> simp

/-- Settles O18: every operation, and every case of the step, answers a next state. -/
theorem nothingEverStops : Obligations.NothingEverStops := ⟨exists_exec, exists_step⟩

end Machine

end Sys2Proof
end

section
/-! PROOFS of `70_reset_and_hazards.md`: reset in any state, and what follows until the next command (R140). -/

namespace Sys2Proof.Machine

variable {s t : State}

/-! ### The state EMPTY (R25, R140) -/

/-- The control bits form the combination EMPTY (R25): no call in flight and no result. -/
structure State.Empty (s : State) : Prop where
  busy : s.busy = false
  done : s.done = false
  stg : s.stg = 0

/-- Reset leads to EMPTY from any state. -/
theorem State.empty_applyReset (s : State) : s.applyReset.Empty := ⟨rfl, rfl, rfl⟩

/-- The host's levels on the pins leave the control bits alone. -/
theorem State.Empty.drive (h : s.Empty) (p : Pins) : (s.drive p).Empty := ⟨h.busy, h.done, h.stg⟩

/-- A step leads out of EMPTY only by an accepted command: there is no call whose stage step it could be. -/
theorem State.Empty.of_step (h : s.Empty) (hp : s.pins.rst = true ∨ s.pins.start = false) (hstep : step s = .next t) :
    t.Empty := by
  rcases step_cases hstep with ⟨-, rfl⟩ | ⟨-, hb, -⟩ | ⟨hr, -, hs, -⟩ | ⟨-, -, -, rfl⟩
  · exact s.empty_applyReset
  · exact absurd (h.busy.symm.trans hb) Bool.false_ne_true
  · simp [hr, hs] at hp
  · exact h

/-- A run of any length from EMPTY stays there while reset is held or no command is given. -/
theorem State.Empty.runPins {ps : List Pins} (h : s.Empty) (hps : ∀ p ∈ ps, p.rst = true ∨ p.start = false) :
    ∃ u, s.runPins ps = some u ∧ u.Empty := by
  induction ps generalizing s with
  | nil => exact ⟨s, rfl, h⟩
  | cons p ps ih =>
    obtain ⟨hp, hps⟩ := List.forall_mem_cons.mp hps
    obtain ⟨t, hstep⟩ := exists_step (s.drive p)
    rw [State.runPins_cons hstep]
    exact ih ((h.drive p).of_step hp hstep) hps

/-! ### The statement settled -/

/-- Settles O26: the step under `rst` is the reset, which leads to EMPTY, and EMPTY is kept along every run that gives
no command. -/
theorem resetAbandonsTheCall : Obligations.ResetAbandonsTheCall := by
  refine fun s hr => ⟨s.applyReset, step_of_rst hr, rfl, rfl, rfl, rfl, fun ps hps => ?_⟩
  obtain ⟨u, hrun, hu⟩ := s.empty_applyReset.runPins hps
  exact ⟨u, hrun, hu.busy, hu.done, hu.stg⟩

end Sys2Proof.Machine
end
